-- ==== Sys2Proof/Word.lean ====
section
/-! DEFINITION. The fixed widths of the FCC (spec 00_scope.md R6, R8, R9): every value is an unsigned bit vector. -/

namespace Sys2Proof

/-- A byte of a key, a block or the message buffer. -/
abbrev Byte := BitVec 8

/-- A 32-bit value: a register, a half-block, a round key, a host word, a command word. -/
abbrev Word := BitVec 32

/-- A 64-bit value: the master key and the key schedule's intermediates. -/
abbrev DWord := BitVec 64

/-- A byte address on the host port (R6: 16 bits). -/
abbrev HostAddr := BitVec 16

/-- The two 32-bit halves (L, R) of an 8-byte block (00_scope.md R13). -/
abbrev Block := Word × Word

end Sys2Proof
end

