-- ==== Sys2Proof/Syntax.lean ====
section
/-! DEFINITION. The nine commands of the FCC (30_encoding.md R116), one constructor per row of opcode_table.json. -/

namespace Sys2Proof

/-- A command. An operand is the number the assembler is given; WellFormed.lean says which numbers have a word (log 13). -/
inductive Instr where
  /-- NOP, 40_command_cycle.md R147. -/
  | nop
  /-- KEYEXP, 43_key_schedule.md R202. -/
  | keyexp
  /-- ENCBLK, 45_feistel.md R241. -/
  | encblk
  /-- DECBLK, 45_feistel.md R242. -/
  | decblk
  /-- FEVAL n, 44_round_function.md R223: n is the round number RN. -/
  | feval (n : Nat)
  /-- PADBLK c, 42_padding.md R182: c is the number CNT of message bytes in the block. -/
  | padblk (c : Nat)
  /-- UNPADBLK, 42_padding.md R183. -/
  | unpadblk
  /-- ENCMSG, 46_message.md R262. -/
  | encmsg
  /-- DECMSG, 46_message.md R264. -/
  | decmsg
  deriving DecidableEq, Repr

end Sys2Proof
end

