-- ==== Sys2Proof/WellFormed.lean ====
section
/-! DEFINITION. Which commands have a word (30_encoding.md R113, R114, R123). -/

namespace Sys2Proof

/-- RN is 1..31 (R113) and CNT is 0..7 (R114): what an assembler accepts (R123). -/
def Instr.wf : Instr → Bool
  | .nop => true
  | .keyexp => true
  | .encblk => true
  | .decblk => true
  | .feval n => decide (1 ≤ n ∧ n ≤ 31)
  | .padblk c => decide (c ≤ 7)
  | .unpadblk => true
  | .encmsg => true
  | .decmsg => true

end Sys2Proof
end

