-- ==== Sys2Proof/Decode.lean ====
section
/-! DEFINITION. Decoding and encoding of command words (30_encoding.md R110 to R118). -/

namespace Sys2Proof

/-- Why a word is ILLEGAL (30_encoding.md R118). The spec knows one outcome, ILLEGAL_COMMAND, whatever the reason. -/
inductive Illegal where
  /-- OPC is one of 0x09..0xFF. -/
  | opcode
  /-- A bit that the format requires to be 0 is set. -/
  | reservedBits
  /-- FEVAL with RN = 0. -/
  | roundZero
  deriving DecidableEq, Repr

/-- Format N (R112): every bit of w[31:8] must be 0. -/
def decodeN (w : Word) (i : Instr) : Except Illegal Instr :=
  if w.extractLsb' 8 24 = 0 then .ok i else .error .reservedBits

/-- Format R (R113): w[31:13] must be 0 and RN = w[12:8] must not be 0. -/
def decodeR (w : Word) : Except Illegal Instr :=
  if w.extractLsb' 13 19 ≠ 0 then .error .reservedBits
  else if w.extractLsb' 8 5 = 0 then .error .roundZero
  else .ok (.feval (w.extractLsb' 8 5).toNat)

/-- Format P (R114): w[31:11] must be 0; CNT = w[10:8]. -/
def decodeP (w : Word) : Except Illegal Instr :=
  if w.extractLsb' 11 21 ≠ 0 then .error .reservedBits
  else .ok (.padblk (w.extractLsb' 8 3).toNat)

/-- The decoder of 30_encoding.md R117, a total function of the word; the opcode is OPC = w[7:0]. -/
def decode (w : Word) : Except Illegal Instr :=
  match (w.extractLsb' 0 8).toNat with
  | 0x00 => decodeN w .nop
  | 0x01 => decodeN w .keyexp
  | 0x02 => decodeN w .encblk
  | 0x03 => decodeN w .decblk
  | 0x04 => decodeR w
  | 0x05 => decodeP w
  | 0x06 => decodeN w .unpadblk
  | 0x07 => decodeN w .encmsg
  | 0x08 => decodeN w .decmsg
  | _ => .error .opcode

/-- The instruction of a table row's bits. A command is one 32-bit word (R110), so there is none of more bits. -/
def decodeTableWord (nbits w : Nat) : Option Instr :=
  if nbits ≤ 32 then
    match decode (BitVec.ofNat 32 (w % 2 ^ nbits)) with
    | .ok i => some i
    | .error _ => none
  else none

/-- The opcode OPC of the map of 30_encoding.md R116. -/
def Instr.opc : Instr → Byte
  | .nop => 0x00
  | .keyexp => 0x01
  | .encblk => 0x02
  | .decblk => 0x03
  | .feval _ => 0x04
  | .padblk _ => 0x05
  | .unpadblk => 0x06
  | .encmsg => 0x07
  | .decmsg => 0x08

/-- The operand field of a command: RN or CNT, 0 where there is none (R112 to R114). -/
def Instr.operand : Instr → Nat
  | .feval n => n
  | .padblk c => c
  | _ => 0

/-- The word of a command: R116's `Word | (x << 8)` for operand x. -/
def encode (i : Instr) : Word :=
  i.opc.setWidth 32 ||| (BitVec.ofNat 32 i.operand <<< 8)

/-- The word an assembler writes for a command, which refuses one that has no word (30_encoding.md R123). -/
def assemble (i : Instr) : Option Word :=
  if i.wf then some (encode i) else none

end Sys2Proof
end

