-- ==== Sys2Proof/Machine/BitUtil.lean ====
section
/-! DEFINITION. BitUtilities: packing, unpacking and rotation (41_bit_utilities.md R160 to R163). -/

namespace Sys2Proof.Machine

/-- The multiplier PHI of 00_scope.md R7. -/
def phi : Word := 0x9E3779B1

/-- Byte j (0..3) of a word, byte 0 first: w[31-8j:24-8j] (20_memory.md R82). -/
def byteOf (w : Word) (j : Nat) : Byte := w.extractLsb' (24 - 8 * j) 8

/-- The word of four bytes, b0 in bits 31:24: b0‖b1‖b2‖b3 (20_memory.md R82, R83). -/
def wordOf (b0 b1 b2 b3 : Byte) : Word := b0 ++ b1 ++ b2 ++ b3

/-- Byte j (0..7) of the block (L, R) (20_memory.md R82, 41_bit_utilities.md R160 `joinBlock`). -/
def blockByte (b : Block) (j : Nat) : Byte :=
  if j < 4 then byteOf b.1 j else byteOf b.2 (j - 4)

/-- The block of eight bytes given by their number (R160 `splitBlock`). -/
def blockOf (get : Nat → Byte) : Block :=
  (wordOf (get 0) (get 1) (get 2) (get 3), wordOf (get 4) (get 5) (get 6) (get 7))

/-- `joinBlock(L, R)` as a byte string of length 8 (R160). -/
def joinBlock (b : Block) : List Byte := (List.range 8).map (blockByte b)

/-- `splitBlock(b)` of a byte string of length 8 (R160); it is applied to no other length. -/
def splitBlock (b : List Byte) : Block := blockOf (fun j => b.getD j 0)

/-- `rotl32(x, s)` for any integer s (R161). -/
def rotl32 (x : Word) (s : Int) : Word :=
  let s' := (s % 32).toNat
  if s' = 0 then x else (x <<< s') ||| (x >>> (32 - s'))

/-- `rotl64(x, s)` for any integer s (R162). -/
def rotl64 (x : DWord) (s : Int) : DWord :=
  let s' := (s % 64).toNat
  if s' = 0 then x else (x <<< s') ||| (x >>> (64 - s'))

end Sys2Proof.Machine
end

