-- ==== Sys2Proof/Config.lean ====
section
/-! DEFINITION. What an implementation fixes (00_scope.md R6) and the free values, which the spec leaves open.
A free value is a constant with no body: no proof can see what it is. -/

namespace Sys2Proof

/-- The OPEN parameter of 00_scope.md R6 (93 I12). It is carried in State, so that a claim about every state is a
claim about every buffer size. DESIGN CHOICE, safe (log 1). -/
structure Config where
  /-- BUF_BYTES, the size of the message buffer in bytes. -/
  bufBytes : Nat
  deriving DecidableEq, Repr

namespace Config

/-- 00_scope.md R6: a multiple of 8 with 16 ≤ BUF_BYTES ≤ 0xF000. -/
abbrev wf (c : Config) : Prop := c.bufBytes % 8 = 0 ∧ 16 ≤ c.bufBytes ∧ c.bufBytes ≤ 0xF000

/-- The spec's default, BUF_BYTES = 1024 (00_scope.md R6). -/
def standard : Config := { bufBytes := 1024 }

/-- What a buffer byte reads as that nothing has written since the last reset (10_state.md R59, 93 I1: any value).
The first argument is the draw counter of State, the second the byte's offset. Safe (log 2). -/
opaque bufDraw (draw offset : Nat) : Byte

/-- What a host read of the result set returns while BUSY = 1 (20_memory.md R93, 93 I2: any value).
The first argument is the draw counter of State, the second the host address. Safe (log 3). -/
opaque busyDraw (draw addr : Nat) : Word

end Config

end Sys2Proof
end

