-- ==== Sys2Proof/Machine/State.lean ====
section
/-! DEFINITION. The state of the FCC (10_state.md R30), the events from outside, and why a step can stop. -/

namespace Sys2Proof.Machine

/-- The round-key file RK0..RK3 (10_state.md R49). -/
structure RoundKeys where
  rk0 : Word
  rk1 : Word
  rk2 : Word
  rk3 : Word
  deriving DecidableEq, Repr

/-- The message buffer: the bytes written since the last reset, as (offset, byte) pairs with rising offsets.
An offset that is not listed has not been written since (10_state.md R59). -/
abbrev Memory := List Host.Cell

/-- A host transaction (30_encoding.md R121). -/
inductive Txn where
  | read (a : HostAddr)
  | write (a : HostAddr) (v : Word)
  deriving DecidableEq, Repr

/-- The response of the host port (30_encoding.md R121). -/
inductive Resp where
  | okay
  | slverr
  deriving DecidableEq, Repr

/-- What the port answers to a transaction: 32-bit data and a response to a READ, a response to a WRITE. -/
inductive Answer where
  | read (v : Word) (r : Resp)
  | write (r : Resp)
  deriving DecidableEq, Repr

/-- One entry of the total order of host transactions and engine steps (20_memory.md R98, 92 D36), with the edges of
the reset input (70_reset_and_hazards.md R320). -/
inductive Event where
  /-- The host performs a transaction. -/
  | host (t : Txn)
  /-- The engine has its turn: the engine step of 40_command_cycle.md R143 where a command is pending. -/
  | engine
  /-- The reset input is asserted. -/
  | assertReset
  /-- The reset input is released. -/
  | releaseReset
  deriving DecidableEq, Repr

/-- The error codes of 60_exceptions.md R280. -/
inductive ErrCode where
  /-- Code 1, raised by KEYEXP, ENCMSG and DECMSG. -/
  | keyLength
  /-- Code 2, reserved and never raised (R282). -/
  | blockLength
  /-- Code 3, raised by UNPADBLK and DECMSG. -/
  | padding
  /-- Code 4, raised by DECMSG. -/
  | ciphertextLength
  /-- Code 5, raised by a word that decodes as ILLEGAL. -/
  | illegalCommand
  /-- Code 6, raised by ENCMSG and DECMSG. -/
  | messageLength
  deriving DecidableEq, Repr

/-- No step of the FCC stops with a fault: a failing command completes with an error code (60_exceptions.md R281)
and no behaviour of the spec is `stuck` (93). So there is no constructor. Safe (log 11). -/
inductive Fault where
  deriving DecidableEq, Repr

/-- Why a step has no meaning. -/
inductive Refusal where
  /-- An instruction without a meaning. No arm of exec answers it; every command is modelled. Safe. -/
  | notModelled (mnemonic : String)
  /-- A host transaction while the reset input is asserted: "outside this spec", "a model refuses it"
  (70_reset_and_hazards.md R320, 93 I9). Raised by the step whose event is that transaction. Safe (log 7). -/
  | hostDuringReset
  deriving DecidableEq, Repr

/-- The architectural state of 10_state.md R30, then the outside and the model's own fields. Reserved bits are not
stored (R56). ID, PARAM and IRQ are functions of it. -/
structure State where
  /-- CTRL.IE_DONE (R35). -/
  ieDone : Bool
  /-- CTRL.IE_ERR (R35). -/
  ieErr : Bool
  /-- CTRL.IE_OVR (R35). -/
  ieOvr : Bool
  /-- STATUS.BUSY (R38). -/
  busy : Bool
  /-- STATUS.DONE (R39). -/
  done : Bool
  /-- STATUS.ERR (R40). -/
  err : Bool
  /-- STATUS.OVR (R41). -/
  ovr : Bool
  /-- STATUS.ECODE (R42). -/
  ecode : BitVec 4
  /-- CMD, the last accepted command word (R43). -/
  cmd : Word
  /-- PEND, the pending command (R54). -/
  pend : Option Word
  /-- ERRCMD (R44). -/
  errcmd : Word
  /-- KEYLEN.KLEN (R45). -/
  klen : BitVec 4
  /-- MSGLEN (R46). -/
  msglen : Word
  /-- KEY_HI (R47). -/
  keyHi : Word
  /-- KEY_LO (R47). -/
  keyLo : Word
  /-- DATA_L (R48). -/
  dataL : Word
  /-- DATA_R (R48). -/
  dataR : Word
  /-- RK0..RK3 (R49). -/
  rk : RoundKeys
  /-- FIN (R50). -/
  fin : Word
  /-- FKEY (R50). -/
  fkey : Word
  /-- FOUT (R51). -/
  fout : Word
  /-- PADRES.PLEN (R52). -/
  plen : BitVec 4
  /-- PADRES.VCNT (R52). -/
  vcnt : BitVec 4
  /-- BUF, the message buffer (R53). -/
  buf : Memory
  /-- The OPEN parameter BUF_BYTES (00_scope.md R6). Log 1. -/
  cfg : Config
  /-- The level of the reset input: true while asserted (70_reset_and_hazards.md R320). Log 7. -/
  rst : Bool
  /-- The events still to come, the next one first; once it is empty the engine has every turn. Log 5. -/
  schedule : List Event
  /-- The draw counter: every step draws its free values under a number of its own. Log 4. -/
  draws : Nat
  /-- The port's answer to the last host transaction. Log 6. -/
  port : Option Answer
  deriving DecidableEq, Repr

/-- The state right after reset (10_state.md R58, 70_reset_and_hazards.md R321). The buffer has no written byte
(R59). BUF_BYTES, the schedule, the draw counter and the port's answer are the model's choice (logs 1, 4, 5, 6). -/
def State.reset : State where
  ieDone := false
  ieErr := false
  ieOvr := false
  busy := false
  done := false
  err := false
  ovr := false
  ecode := 0
  cmd := 0
  pend := none
  errcmd := 0
  klen := 0
  msglen := 0
  keyHi := 0
  keyLo := 0
  dataL := 0
  dataR := 0
  rk := { rk0 := 0, rk1 := 0, rk2 := 0, rk3 := 0 }
  fin := 0
  fkey := 0
  fout := 0
  plen := 0
  vcnt := 0
  buf := []
  cfg := Config.standard
  rst := false
  schedule := []
  draws := 0
  port := none

end Sys2Proof.Machine
end

