-- ==== Sys2Proof/Machine/Ops.lean ====
section
/-! DEFINITION. The named operations over the message buffer and the registers: buffer bytes and blocks
(20_memory.md R84 to R86), completion (40_command_cycle.md R145), failure (60_exceptions.md R281) and its
acknowledgement (R287), acceptance (40_command_cycle.md R141), reset (10_state.md R58). -/

namespace Sys2Proof.Machine

/-! ### The message buffer -/

/-- The canonical form: offsets strictly rising. An unlisted byte reads as a free value, which no listed byte is
known to equal, so a listed byte is never redundant (log 2). -/
abbrev Memory.wf (m : Memory) : Prop := m.Pairwise (fun x y => x.1 < y.1)

/-- The byte written at offset o since the last reset, if there is one. -/
def Memory.find : Memory → Nat → Option Byte
  | [], _ => none
  | (p, c) :: rest, o => if p = o then some c else Memory.find rest o

/-- What an unlisted byte reads as: a free value (10_state.md R59, log 2). -/
def Memory.unwritten (draw o : Nat) : Byte := Config.bufDraw draw o

/-- `BufRead(o)` (20_memory.md R84), drawing under the number `draw` where the byte is unwritten. -/
def Memory.read (m : Memory) (draw o : Nat) : Byte := (m.find o).getD (Memory.unwritten draw o)

/-- `BufWrite(o, v)` (20_memory.md R84). -/
def Memory.write : Memory → Nat → Byte → Memory
  | [], o, v => [(o, v)]
  | (p, c) :: rest, o, v =>
    if o < p then (o, v) :: (p, c) :: rest
    else if o = p then (o, v) :: rest
    else (p, c) :: Memory.write rest o v

/-- `BufWrite(j, v)` for j in o .. o+n-1, in this order. -/
def Memory.fill (m : Memory) (o : Nat) : Nat → Byte → Memory
  | 0, _ => m
  | n + 1, v => (Memory.fill m o n v).write (o + n) v

/-- The host word at offset o: BUF[o]‖BUF[o+1]‖BUF[o+2]‖BUF[o+3] (20_memory.md R83). -/
def Memory.readWord (m : Memory) (draw o : Nat) : Word :=
  wordOf (m.read draw o) (m.read draw (o + 1)) (m.read draw (o + 2)) (m.read draw (o + 3))

/-- Stores the host word w at offset o (20_memory.md R84). -/
def Memory.writeWord (m : Memory) (o : Nat) (w : Word) : Memory :=
  (((m.write o (byteOf w 0)).write (o + 1) (byteOf w 1)).write (o + 2) (byteOf w 2)).write (o + 3) (byteOf w 3)

/-- `BlkRead(k)` (20_memory.md R86): the block at bytes 8k..8k+7. -/
def Memory.readBlock (m : Memory) (draw k : Nat) : Block :=
  blockOf (fun j => m.read draw (8 * k + j))

/-- `BlkWrite(k, L, R)` (20_memory.md R86). -/
def Memory.writeBlock (m : Memory) (k : Nat) (b : Block) : Memory :=
  (m.writeWord (8 * k) b.1).writeWord (8 * k + 4) b.2

/-- The loop `for k in 0 .. n-1: BlkWrite(k, f(BlkRead(k)))` of 46_message.md R262 and R264. -/
def Memory.mapBlocks (m : Memory) (draw : Nat) (f : Block → Block) : Nat → Memory
  | 0 => m
  | k + 1 =>
    let m' := Memory.mapBlocks m draw f k
    m'.writeBlock k (f (m'.readBlock draw k))

/-- Byte o of BUF as the state's draw counter gives it (00_scope.md R11 `BufRead`). -/
def State.bufByte (s : State) (o : Nat) : Byte := s.buf.read s.draws o

/-! ### Writes of the engine's result registers -/

/-- Writes DATA_L and DATA_R. -/
def State.setBlock (s : State) (b : Block) : State := { s with dataL := b.1, dataR := b.2 }

/-- Writes RK0..RK3. -/
def State.setRoundKeys (s : State) (rk : RoundKeys) : State := { s with rk := rk }

/-- Writes FOUT. -/
def State.setFout (s : State) (v : Word) : State := { s with fout := v }

/-- PADRES after a successful check with pad length p: PLEN = p, VCNT = 8 - p (10_state.md R52, 42_padding.md R183). -/
def State.setPadres (s : State) (p : Nat) : State :=
  { s with plen := BitVec.ofNat 4 p, vcnt := BitVec.ofNat 4 (8 - p) }

/-- PADRES <- 0, after a failed check (10_state.md R52). -/
def State.clearPadres (s : State) : State := { s with plen := 0, vcnt := 0 }

/-- Writes MSGLEN. -/
def State.setMsglen (s : State) (n : Nat) : State := { s with msglen := BitVec.ofNat 32 n }

/-- Replaces the content of BUF. -/
def State.setBuf (s : State) (m : Memory) : State := { s with buf := m }

/-! ### Acceptance, completion and failure of a command -/

/-- Acceptance of the command word w (40_command_cycle.md R141). -/
def State.accept (s : State) (w : Word) : State :=
  { s with cmd := w, pend := some w, busy := true, done := false }

/-- `finish()` (40_command_cycle.md R145). -/
def State.finish (s : State) : State := { s with busy := false, pend := none, done := true }

/-- The codes of 60_exceptions.md R280. -/
def ErrCode.code : ErrCode → BitVec 4
  | .keyLength => 1
  | .blockLength => 2
  | .padding => 3
  | .ciphertextLength => 4
  | .illegalCommand => 5
  | .messageLength => 6

/-- The command word an error records, `w = PEND` (60_exceptions.md R281). Every engine step has a pending word;
where there is none, CMD stands in, which holds the same word while one is pending. DESIGN CHOICE (log 10). -/
def State.failingWord (s : State) : Word := s.pend.getD s.cmd

/-- `fail(E)`: the error entry of 60_exceptions.md R281 and R286, with first-error capture. -/
def State.fail (s : State) (e : ErrCode) : State :=
  { s with
    busy := false
    pend := none
    done := true
    err := true
    ecode := if s.err then s.ecode else e.code
    errcmd := if s.err then s.errcmd else s.failingWord }

/-- The acknowledgement of an error by the host (60_exceptions.md R287, 10_state.md R37). -/
def State.ackError (s : State) : State := { s with err := false, ecode := 0, errcmd := 0 }

/-! ### Reset and the turn of a step -/

/-- Every piece of the FCC's state takes its reset value and the buffer becomes unspecified (10_state.md R36, R58,
R59). BUF_BYTES, the reset input, the schedule, the draw counter and the port's answer are not reset (log 4). -/
def State.clear (s : State) : State :=
  { State.reset with cfg := s.cfg, rst := s.rst, schedule := s.schedule, draws := s.draws, port := s.port }

/-- The turn of a step: its event leaves the schedule and its free values get a number of their own (log 4). -/
def State.slot (s : State) : State := { s with schedule := s.schedule.tail, draws := s.draws + 1 }

end Sys2Proof.Machine
end

