-- ==== Sys2Proof/Machine/Cycle.lean ====
section
/-! DEFINITION. NOP (40_command_cycle.md R147). -/

namespace Sys2Proof.Machine

/-- NOP: `finish()` (R147). -/
def execNop (s : State) : Host.Outcome State Fault Refusal := .next s.finish

end Sys2Proof.Machine
end

