-- ==== Sys2Proof/Machine/Operands.lean ====
section
/-! DEFINITION. The operands of the commands as their registers hold them (10_state.md R45 to R52, R61). RN and CNT
are in the command word and are read by the decoder (30_encoding.md R115). -/

namespace Sys2Proof.Machine

/-- The master key K = KEY_HI ‖ KEY_LO (10_state.md R47, 20_memory.md R81). -/
def State.masterKey (s : State) : DWord := s.keyHi ++ s.keyLo

/-- A key is valid exactly when KLEN = 8 (43_key_schedule.md R200). -/
abbrev State.keyValid (s : State) : Prop := s.klen = 8

/-- The block (L, R) in DATA_L and DATA_R (10_state.md R48). -/
def State.block (s : State) : Block := (s.dataL, s.dataR)

/-- rk[i] of the round-key file, i in 0..3 (10_state.md R49). -/
def RoundKeys.get (k : RoundKeys) : Nat → Word
  | 0 => k.rk0
  | 1 => k.rk1
  | 2 => k.rk2
  | _ => k.rk3

/-- PADRES as a word: PLEN in 3:0, VCNT in 11:8 (10_state.md R52). -/
def State.padresWord (s : State) : Word := s.plen.setWidth 32 ||| (s.vcnt.setWidth 32 <<< 8)

/-- KEYLEN as a word: KLEN in 3:0 (10_state.md R45). -/
def State.keylenWord (s : State) : Word := s.klen.setWidth 32

end Sys2Proof.Machine
end

