-- ==== Sys2Proof/Machine/Round.lean ====
section
/-! DEFINITION. The round function F and FEVAL (44_round_function.md R220 to R223). -/

namespace Sys2Proof.Machine

/-- F(r, k, n) in the nine steps of R221, the De Morgan duplicates kept. Each 32-bit operation is reduced mod 2^32. -/
def roundF (r k : Word) (n : Nat) : Word :=
  let a := r ^^^ k
  let b := a * phi
  let andDirect := a &&& b
  let andViaComplement := ~~~(~~~a ||| ~~~b)
  let orDirect := a ||| b
  let orViaComplement := ~~~(~~~a &&& ~~~b)
  let t1 := rotl32 (andDirect ^^^ b) ((3 * n + 5) % 32 : Nat)
  let t2 := rotl32 (andViaComplement ^^^ a) ((5 * n + 11) % 32 : Nat)
  let res6 := (t1 ^^^ t2) + (orDirect ^^^ orViaComplement)
  let res7 := rotl32 res6 (((k &&& 0xF).toNat + n) % 32 : Nat)
  res7 ^^^ ((res7 <<< 3) ^^^ (k >>> (n % 8)))

/-- FEVAL n: FOUT <- F(FIN, FKEY, n) (R223). -/
def execFeval (n : Nat) (s : State) : Host.Outcome State Fault Refusal :=
  .next (s.setFout (roundF s.fin s.fkey n)).finish

end Sys2Proof.Machine
end

