-- ==== Sys2Proof/Machine/Feistel.lean ====
section
/-! DEFINITION. The Feistel block engine, ENCBLK and DECBLK (45_feistel.md R240 to R244). -/

namespace Sys2Proof.Machine

/-- Encryption round n: (L, R) becomes (R, L XOR F(R, rk[n-1], n)) (R240). -/
def encRound (rk : RoundKeys) (b : Block) (n : Nat) : Block :=
  (b.2, b.1 ^^^ roundF b.2 (rk.get (n - 1)) n)

/-- Decryption round n: (L, R) becomes (R XOR F(L, rk[n-1], n), L) (R240). -/
def decRound (rk : RoundKeys) (b : Block) (n : Nat) : Block :=
  (b.2 ^^^ roundF b.1 (rk.get (n - 1)) n, b.1)

/-- `encrypt(L, R, rk)`: rounds 1 to 4, no final swap (R240). -/
def encrypt (rk : RoundKeys) (b : Block) : Block := [1, 2, 3, 4].foldl (encRound rk) b

/-- `decrypt(L, R, rk)`: rounds 4 down to 1 (R240). -/
def decrypt (rk : RoundKeys) (b : Block) : Block := [4, 3, 2, 1].foldl (decRound rk) b

/-- ENCBLK (R241). -/
def execEncblk (s : State) : Host.Outcome State Fault Refusal :=
  .next (s.setBlock (encrypt s.rk s.block)).finish

/-- DECBLK (R242). -/
def execDecblk (s : State) : Host.Outcome State Fault Refusal :=
  .next (s.setBlock (decrypt s.rk s.block)).finish

end Sys2Proof.Machine
end

