-- ==== Sys2Proof/Machine/KeySchedule.lean ====
section
/-! DEFINITION. The key schedule and KEYEXP (43_key_schedule.md R200 to R203). -/

namespace Sys2Proof.Machine

/-- `mixed` of step (3): ((rot XOR (rot >> 17)) + (rot << 5)) mod 2^64 (R201). -/
def mix (rot : DWord) : DWord := (rot ^^^ (rot >>> 17)) + (rot <<< 5)

/-- rk[i] (R201). The product 0x9E3779B1·(i+1) is exact: for i ≤ 3 it is below 2^64. -/
def roundKey (K : DWord) (i : Nat) : Word :=
  (mix (rotl64 K (8 * i)) ^^^ BitVec.ofNat 64 (phi.toNat * (i + 1))).setWidth 32

/-- `schedule(K)` (R201). -/
def keySchedule (K : DWord) : RoundKeys :=
  { rk0 := roundKey K 0, rk1 := roundKey K 1, rk2 := roundKey K 2, rk3 := roundKey K 3 }

/-- KEYEXP (R202). -/
def execKeyexp (s : State) : Host.Outcome State Fault Refusal :=
  if s.keyValid then .next (s.setRoundKeys (keySchedule s.masterKey)).finish
  else .next (s.fail .keyLength)

end Sys2Proof.Machine
end

