-- ==== Sys2Proof/Machine/Padding.lean ====
section
/-! DEFINITION. PKCS#7-style padding over 8-byte blocks, PADBLK and UNPADBLK (42_padding.md R180 to R184). -/

namespace Sys2Proof.Machine

/-- The pad length p = 8 - (n mod 8) of a message of n bytes, 1..8 (R180). -/
def padLength (n : Nat) : Nat := 8 - n % 8

/-- `pad(m)` (R180). -/
def pad (m : List Byte) : List Byte :=
  m ++ List.replicate (padLength m.length) (BitVec.ofNat 8 (padLength m.length))

/-- The check of R181 on a string of n bytes, byte j being `get j`: the pad length p where the padding is right,
none where unpad fails with PADDING. The lines stand in the order of R181. -/
def padCheck (get : Nat → Byte) (n : Nat) : Option Nat :=
  let p := (get (n - 1)).toNat
  if n = 0 then none
  else if p < 1 ∨ p > 8 then none
  else if n < p then none
  else if (List.range p).all (fun i => get (n - p + i) == BitVec.ofNat 8 p) then some p
  else none

/-- `unpad(d)` (R181), none standing for fail(PADDING). -/
def unpad (d : List Byte) : Option (List Byte) :=
  (padCheck (fun j => d.getD j 0) d.length).map (fun p => d.take (d.length - p))

/-- The block with bytes b[c..7] replaced by the pad byte 8 - c (R182). -/
def padBlock (c : Nat) (b : Block) : Block :=
  blockOf (fun j => if c ≤ j then BitVec.ofNat 8 (8 - c) else blockByte b j)

/-- PADBLK c (R182). -/
def execPadblk (c : Nat) (s : State) : Host.Outcome State Fault Refusal :=
  .next (s.setBlock (padBlock c s.block)).finish

/-- UNPADBLK (R183): the check of R181 on the 8 bytes of the block. -/
def execUnpadblk (s : State) : Host.Outcome State Fault Refusal :=
  match padCheck (blockByte s.block) 8 with
  | some p => .next (s.setPadres p).finish
  | none => .next (s.clearPadres.fail .padding)

end Sys2Proof.Machine
end

