-- ==== Sys2Proof/Machine/Message.lean ====
section
/-! DEFINITION. The message codec, ENCMSG and DECMSG (46_message.md R260 to R267). -/

namespace Sys2Proof.Machine

/-! ### The byte-string functions of R260 -/

/-- Applies a block function to each consecutive 8-byte chunk, chunk k being bytes 8k..8k+7 (R260). -/
def mapChunks (f : Block → Block) (d : List Byte) : List Byte :=
  (List.range (d.length / 8)).flatMap (fun k => joinBlock (f (splitBlock ((d.drop (8 * k)).take 8))))

/-- `encryptMessage(m, K)` (R260). -/
def encryptMessage (m : List Byte) (K : DWord) : List Byte :=
  mapChunks (encrypt (keySchedule K)) (pad m)

/-- `decryptMessage(c, K)` (R260), with its two ways to fail. -/
def decryptMessage (c : List Byte) (K : DWord) : Except ErrCode (List Byte) :=
  if c.length % 8 ≠ 0 then .error .ciphertextLength
  else
    match unpad (mapChunks (decrypt (keySchedule K)) c) with
    | some m => .ok m
    | none => .error .padding

/-! ### The commands -/

/-- The bytes BUF[0..n-1] (20_memory.md R85). -/
def State.message (s : State) (n : Nat) : List Byte := (List.range n).map s.bufByte

/-- BUF after the pad loop of R262 for a message of n bytes. -/
def State.paddedBuf (s : State) (n : Nat) : Memory :=
  s.buf.fill n (padLength n) (BitVec.ofNat 8 (padLength n))

/-- ENCMSG (R262), the checks in the order of 60_exceptions.md R284. -/
def execEncmsg (s : State) : Host.Outcome State Fault Refusal :=
  let n := s.msglen.toNat
  let rk := keySchedule s.masterKey
  let P := n + padLength n
  if ¬ s.keyValid then .next (s.fail .keyLength)
  else if n ≥ s.cfg.bufBytes then .next (s.fail .messageLength)
  else
    .next (((s.setRoundKeys rk).setBuf ((s.paddedBuf n).mapBlocks s.draws (encrypt rk) (P / 8))).setMsglen P).finish

/-- DECMSG (R264), the checks in the order of 60_exceptions.md R284. A padding failure leaves RK0..RK3 rewritten and
BUF[0..n-1] zeroed (R263); for n = 0 no byte of BUF is touched. -/
def execDecmsg (s : State) : Host.Outcome State Fault Refusal :=
  let n := s.msglen.toNat
  let rk := keySchedule s.masterKey
  let plain := s.buf.mapBlocks s.draws (decrypt rk) (n / 8)
  if n % 8 ≠ 0 then .next (s.fail .ciphertextLength)
  else if n > s.cfg.bufBytes then .next (s.fail .messageLength)
  else if ¬ s.keyValid then .next (s.fail .keyLength)
  else
    match padCheck (plain.read s.draws) n with
    | some p => .next ((((s.setRoundKeys rk).setBuf plain).setMsglen (n - p)).setPadres p).finish
    | none => .next (((s.setRoundKeys rk).setBuf (plain.fill 0 n 0)).clearPadres.fail .padding)

end Sys2Proof.Machine
end

