-- ==== Sys2Proof/Machine/Flags.lean ====
section
/-! DEFINITION. STATUS, CTRL and the interrupt output (10_state.md R35 to R42, R55). No command writes a flag as a
side effect of its arithmetic (R60): the flags move in accept, finish and fail (Ops.lean) and here. -/

namespace Sys2Proof.Machine

/-- A flag as bit n of a word. -/
def flagBit (b : Bool) (n : Nat) : Word := (BitVec.ofBool b).setWidth 32 <<< n

/-- STATUS as the host reads it: BUSY 0, DONE 1, ERR 2, OVR 3, ECODE 11:8 (10_state.md R37). -/
def State.statusWord (s : State) : Word :=
  flagBit s.busy 0 ||| flagBit s.done 1 ||| flagBit s.err 2 ||| flagBit s.ovr 3 ||| (s.ecode.setWidth 32 <<< 8)

/-- CTRL as the host reads it: IE_DONE 0, IE_ERR 1, IE_OVR 2, SRST reads 0 (10_state.md R35). -/
def State.ctrlWord (s : State) : Word :=
  flagBit s.ieDone 0 ||| flagBit s.ieErr 1 ||| flagBit s.ieOvr 2

/-- Clears DONE. -/
def State.clearDone (s : State) : State := { s with done := false }

/-- Clears OVR. -/
def State.clearOvr (s : State) : State := { s with ovr := false }

/-- Sets OVR: a write was dropped (10_state.md R41). -/
def State.setOvr (s : State) : State := { s with ovr := true }

/-- A host write v to STATUS, write-one-to-clear on bits 1, 2 and 3 (10_state.md R37). -/
def State.writeStatus (s : State) (v : Word) : State :=
  let s1 := if v[1] then s.clearDone else s
  let s2 := if v[2] then s1.ackError else s1
  if v[3] then s2.clearOvr else s2

/-- Sets the interrupt enables from bits 0, 1 and 2 (10_state.md R35). -/
def State.setEnables (s : State) (v : Word) : State :=
  { s with ieDone := v[0], ieErr := v[1], ieOvr := v[2] }

/-- A host write v to CTRL: a soft reset where bit 31 is 1, the enables otherwise (10_state.md R35, R36). -/
def State.writeCtrl (s : State) (v : Word) : State :=
  if v[31] then s.clear else s.setEnables v

/-- The interrupt output (10_state.md R55, 60_exceptions.md R290). -/
def State.irq (s : State) : Bool :=
  (s.ieDone && s.done) || (s.ieErr && s.err) || (s.ieOvr && s.ovr)

end Sys2Proof.Machine
end

