-- ==== Sys2Proof/Machine/HostPort.lean ====
section
/-! DEFINITION. The register map (10_state.md R32) and the host transactions (20_memory.md R88 to R95). -/

namespace Sys2Proof.Machine

/-- The host-visible registers (10_state.md R32). -/
inductive Reg where
  | id | param | ctrl | status | cmd | errcmd | keylen | msglen | keyHi | keyLo
  | dataL | dataR | rk0 | rk1 | rk2 | rk3 | fin | fkey | fout | padres
  deriving DecidableEq, Repr

/-- What a mapped address names: a register, or the word of BUF at an offset (20_memory.md R80). -/
inductive Target where
  | reg (r : Reg)
  | window (o : Nat)
  deriving DecidableEq, Repr

/-- The register's byte offset on the host port (10_state.md R32). -/
def Reg.offset : Reg → HostAddr
  | .id => 0x000
  | .param => 0x004
  | .ctrl => 0x008
  | .status => 0x00C
  | .cmd => 0x010
  | .errcmd => 0x014
  | .keylen => 0x018
  | .msglen => 0x01C
  | .keyHi => 0x020
  | .keyLo => 0x024
  | .dataL => 0x028
  | .dataR => 0x02C
  | .rk0 => 0x030
  | .rk1 => 0x034
  | .rk2 => 0x038
  | .rk3 => 0x03C
  | .fin => 0x040
  | .fkey => 0x044
  | .fout => 0x048
  | .padres => 0x04C

/-- The register at a byte offset, if there is one (10_state.md R32). -/
def Reg.ofOffset : Nat → Option Reg
  | 0x000 => some .id
  | 0x004 => some .param
  | 0x008 => some .ctrl
  | 0x00C => some .status
  | 0x010 => some .cmd
  | 0x014 => some .errcmd
  | 0x018 => some .keylen
  | 0x01C => some .msglen
  | 0x020 => some .keyHi
  | 0x024 => some .keyLo
  | 0x028 => some .dataL
  | 0x02C => some .dataR
  | 0x030 => some .rk0
  | 0x034 => some .rk1
  | 0x038 => some .rk2
  | 0x03C => some .rk3
  | 0x040 => some .fin
  | 0x044 => some .fkey
  | 0x048 => some .fout
  | 0x04C => some .padres
  | _ => none

/-- The first address of the BUF window (20_memory.md R84). -/
def bufBase : Nat := 0x1000

/-- What an address names; none where it is misaligned or unmapped (20_memory.md R80, R90). -/
def target (c : Config) (a : HostAddr) : Option Target :=
  if a.toNat % 4 ≠ 0 then none
  else if bufBase ≤ a.toNat ∧ a.toNat < bufBase + c.bufBytes then some (.window (a.toNat - bufBase))
  else (Reg.ofOffset a.toNat).map Target.reg

/-- The input set IN (10_state.md R62). -/
def Target.isInput : Target → Bool
  | .reg .cmd => true
  | .reg .keylen => true
  | .reg .msglen => true
  | .reg .keyHi => true
  | .reg .keyLo => true
  | .reg .dataL => true
  | .reg .dataR => true
  | .reg .rk0 => true
  | .reg .rk1 => true
  | .reg .rk2 => true
  | .reg .rk3 => true
  | .reg .fin => true
  | .reg .fkey => true
  | .window _ => true
  | _ => false

/-- The result set OUT (10_state.md R62). -/
def Target.isResult : Target → Bool
  | .reg .msglen => true
  | .reg .dataL => true
  | .reg .dataR => true
  | .reg .rk0 => true
  | .reg .rk1 => true
  | .reg .rk2 => true
  | .reg .rk3 => true
  | .reg .fout => true
  | .reg .padres => true
  | .window _ => true
  | _ => false

/-- ID (10_state.md R33). -/
def idWord : Word := 0x46434331

/-- PARAM: BUF_BYTES in 15:0, the round count 4 in 19:16, the block size 8 in 23:20 (10_state.md R34). -/
def paramWord (c : Config) : Word := BitVec.ofNat 32 c.bufBytes ||| (4 <<< 16) ||| (8 <<< 20)

/-- The value of a register, its reserved bits 0 (10_state.md R33 to R52, R56). -/
def State.regValue (s : State) : Reg → Word
  | .id => idWord
  | .param => paramWord s.cfg
  | .ctrl => s.ctrlWord
  | .status => s.statusWord
  | .cmd => s.cmd
  | .errcmd => s.errcmd
  | .keylen => s.keylenWord
  | .msglen => s.msglen
  | .keyHi => s.keyHi
  | .keyLo => s.keyLo
  | .dataL => s.dataL
  | .dataR => s.dataR
  | .rk0 => s.rk.rk0
  | .rk1 => s.rk.rk1
  | .rk2 => s.rk.rk2
  | .rk3 => s.rk.rk3
  | .fin => s.fin
  | .fkey => s.fkey
  | .fout => s.fout
  | .padres => s.padresWord

/-- The value of a register or of a word of the BUF window (20_memory.md R83). -/
def State.targetValue (s : State) : Target → Word
  | .reg r => s.regValue r
  | .window o => s.buf.readWord s.draws o

/-- `HostRead(a)` (20_memory.md R88): the data and the response. It is a function of the state and changes none of it
(R95). While BUSY = 1 the result set reads as a free value (R93, log 3). -/
def State.hostRead (s : State) (a : HostAddr) : Word × Resp :=
  match target s.cfg a with
  | none => (0, .slverr)
  | some t =>
    if t.isResult ∧ s.busy then (Config.busyDraw s.draws a.toNat, .okay)
    else (s.targetValue t, .okay)

/-- The store of a host write that is performed, to a register or to the BUF window (20_memory.md R89 cases 2 to 4 and
6 to 9). -/
def State.storeTarget (s : State) (v : Word) : Target → State
  | .reg .id => s
  | .reg .param => s
  | .reg .ctrl => s.writeCtrl v
  | .reg .status => s.writeStatus v
  | .reg .cmd => s.accept v
  | .reg .errcmd => s
  | .reg .keylen => { s with klen := v.extractLsb' 0 4 }
  | .reg .msglen => { s with msglen := v }
  | .reg .keyHi => { s with keyHi := v }
  | .reg .keyLo => { s with keyLo := v }
  | .reg .dataL => { s with dataL := v }
  | .reg .dataR => { s with dataR := v }
  | .reg .rk0 => { s with rk := { s.rk with rk0 := v } }
  | .reg .rk1 => { s with rk := { s.rk with rk1 := v } }
  | .reg .rk2 => { s with rk := { s.rk with rk2 := v } }
  | .reg .rk3 => { s with rk := { s.rk with rk3 := v } }
  | .reg .fin => { s with fin := v }
  | .reg .fkey => { s with fkey := v }
  | .reg .fout => s
  | .reg .padres => s
  | .window o => { s with buf := s.buf.writeWord o v }

/-- `HostWrite(a, v)` (20_memory.md R89): the next state and the response. A write to the input set while BUSY = 1 is
dropped and sets OVR (R92). -/
def State.hostWrite (s : State) (a : HostAddr) (v : Word) : State × Resp :=
  match target s.cfg a with
  | none => (s, .slverr)
  | some t =>
    if t.isInput ∧ s.busy then (s.setOvr, .okay)
    else (s.storeTarget v t, .okay)

/-- The port gives its answer (30_encoding.md R121, log 6). -/
def State.answer (s : State) (x : Answer) : State := { s with port := some x }

/-- One host transaction, atomic (20_memory.md R94). -/
def State.transact (s : State) : Txn → State
  | .read a => s.answer (.read (s.hostRead a).1 (s.hostRead a).2)
  | .write a v => (s.hostWrite a v).1.answer (.write (s.hostWrite a v).2)

end Sys2Proof.Machine
end

