-- ==== Sys2Proof/Machine/Engine.lean ====
section
/-! DEFINITION. What one event does: the engine step (40_command_cycle.md R143), a host transaction, an edge of the
reset input (70_reset_and_hazards.md R320). -/

namespace Sys2Proof.Machine

/-- Performs the pending command word w (40_command_cycle.md R143). -/
def runCommand (w : Word) (s : State) : Host.Outcome State Fault Refusal :=
  match decode w with
  | .ok i => exec i s
  | .error _ => .next (s.fail .illegalCommand)

/-- The engine's turn: the engine step where a command is pending, and nothing where none is (R143). While the reset
input is asserted the state is held (70_reset_and_hazards.md R320). -/
def engineTurn (s : State) : Host.Outcome State Fault Refusal :=
  if s.rst then .next s
  else
    match s.pend with
    | some w => runCommand w s
    | none => .next s

/-- A host transaction; refused while the reset input is asserted (70_reset_and_hazards.md R320, 93 I9, log 7). -/
def hostTurn (t : Txn) (s : State) : Host.Outcome State Fault Refusal :=
  if s.rst then .refused .hostDuringReset else .next (s.transact t)

/-- The reset input is asserted: the state takes its reset values (70_reset_and_hazards.md R320). -/
def State.assertReset (s : State) : State := { s.clear with rst := true }

/-- The reset input is released (70_reset_and_hazards.md R320). -/
def State.releaseReset (s : State) : State := { s with rst := false }

/-- What an event does. -/
def perform (e : Event) (s : State) : Host.Outcome State Fault Refusal :=
  match e with
  | .host t => hostTurn t s
  | .engine => engineTurn s
  | .assertReset => .next s.assertReset
  | .releaseReset => .next s.releaseReset

/-- The event of the next step: the first of the schedule, or the engine's turn once the outside has nothing more to do
(weak fairness, 40_command_cycle.md R144, log 5). -/
def State.nextEvent (s : State) : Event := s.schedule.head?.getD .engine

/-- The state with the word w accepted and the engine's turn next (log 8). -/
def State.withCommand (s : State) (w : Word) : State :=
  { s.accept w with rst := false, schedule := .engine :: s.schedule }

end Sys2Proof.Machine
end

