-- ==== Sys2Proof/Machine/Step.lean ====
section
/-! DEFINITION. One step of the FCC: the next event of the total order of host transactions and engine steps
(20_memory.md R98, 40_command_cycle.md R140). -/

namespace Sys2Proof.Machine

/-- One step: the next event is taken from the schedule and performed, with free values of its own. -/
def step (s : State) : Host.Outcome State Fault Refusal := perform s.nextEvent s.slot

/-- The FCC fetches no instructions (10_state.md R31): a command comes by a host write to CMD (40_command_cycle.md
R141). This is the state after that write has been accepted, with the engine's turn next (log 8). -/
def State.withFetchWord (s : State) (nbits w : Nat) : State :=
  s.withCommand (BitVec.ofNat 32 (w % 2 ^ nbits))

end Sys2Proof.Machine
end

