-- ==== Sys2Proof/Machine/HostAsm.lean ====
section
/-! DEFINITION. Host programs: their statements and pseudo-instructions (30_encoding.md R122 to R124), and how one runs
beside the engine (20_memory.md R98, 40_command_cycle.md R144). -/

namespace Sys2Proof.Machine

/-! ### Statements and their expansions -/

/-- An address operand (R122). -/
inductive AddrOp where
  /-- A register's name, which stands for its offset. -/
  | reg (r : Reg)
  /-- A literal offset. -/
  | literal (a : HostAddr)
  /-- `BUF+o`. -/
  | buf (o : Nat)
  deriving DecidableEq, Repr

/-- A host statement (R122) or a pseudo-instruction (R124). -/
inductive HostStmt where
  | wr (a : AddrOp) (v : Word)
  | rd (a : AddrOp)
  | issue (i : Instr)
  | wait
  | run (i : Instr)
  | ldkey (hi lo : Word)
  | ldblk (l r : Word)
  | clrst
  | ldbuf (o : Nat) (ws : List Word)
  deriving DecidableEq, Repr

/-- What the host's processor performs: a transaction, or the loop of `wait` (R124). -/
inductive HostOp where
  | txn (x : Txn)
  | waitIdle
  deriving DecidableEq, Repr

/-- `BUF+o` stands for 0x1000 + o (R122). Where that is no 16-bit address the spec is silent, and the assembler refuses
the statement. DESIGN CHOICE, safe (log 14). -/
def bufAddr (o : Nat) : Option HostAddr :=
  if bufBase + o < 2 ^ 16 then some (BitVec.ofNat 16 (bufBase + o)) else none

/-- The address an operand stands for (R122). -/
def AddrOp.addr : AddrOp → Option HostAddr
  | .reg r => some r.offset
  | .literal a => some a
  | .buf o => bufAddr o

/-- `wr r, v` for a register. -/
def wrReg (r : Reg) (v : Word) : HostOp := .txn (.write r.offset v)

/-- `issue <cmd>`: the write of the command's word to CMD; none for a command that an assembler refuses (R123). -/
def issueOps (i : Instr) : Option (List HostOp) := (assemble i).map (fun w => [wrReg .cmd w])

/-- `ldbuf`: one `wr BUF+o, w` a word, at offsets that rise by 4; none where one of them is refused (log 14). -/
def ldbufOps : Nat → List Word → Option (List HostOp)
  | _, [] => some []
  | o, w :: ws => do
    let a ← bufAddr o
    let rest ← ldbufOps (o + 4) ws
    return .txn (.write a w) :: rest

/-- The expansion of a statement (R122, R124); none where the assembler refuses it. -/
def HostStmt.ops : HostStmt → Option (List HostOp)
  | .wr a v => a.addr.map (fun a => [.txn (.write a v)])
  | .rd a => a.addr.map (fun a => [.txn (.read a)])
  | .issue i => issueOps i
  | .wait => some [.waitIdle]
  | .run i => (issueOps i).map (· ++ [.waitIdle])
  | .ldkey hi lo => some [wrReg .keyHi hi, wrReg .keyLo lo, wrReg .keylen 8]
  | .ldblk l r => some [wrReg .dataL l, wrReg .dataR r]
  | .clrst => some [wrReg .status 0xE]
  | .ldbuf o ws => ldbufOps o ws

/-- A host program, statement by statement; none where one is refused. -/
def hostProgram : List HostStmt → Option (List HostOp)
  | [] => some []
  | p :: ps => do
    let ops ← p.ops
    let rest ← hostProgram ps
    return ops ++ rest

/-! ### Running a host program -/

/-- One entry of the total order of host transactions and engine steps (20_memory.md R98). -/
inductive Slot where
  /-- The host performs its next transaction, if it has one. -/
  | host
  /-- The engine has its turn. -/
  | engine
  deriving DecidableEq, Repr

/-- A host program as it runs: what the host still has to perform, and the FCC. -/
structure HostRun where
  ops : List HostOp
  state : State
  deriving DecidableEq, Repr

/-- The transaction of an operation; the loop of `wait` reads STATUS (R124). -/
def HostOp.transaction : HostOp → Txn
  | .txn x => x
  | .waitIdle => .read Reg.status.offset

/-- The port has answered a read with bit 0 (BUSY) of the value 0. -/
def State.readIdle (s : State) : Bool :=
  match s.port with
  | some (.read v _) => !v[0]
  | _ => false

/-- What the host still has to perform once the transaction of `op` has been answered: the loop of `wait` repeats until
BUSY reads 0 (R124). -/
def HostOp.next (op : HostOp) (rest : List HostOp) (s : State) : List HostOp :=
  match op with
  | .txn _ => rest
  | .waitIdle => if s.readIdle then rest else op :: rest

/-- The step whose event is e, the events still to come kept. -/
def State.stepEvent (s : State) (e : Event) : Host.Outcome State Fault Refusal :=
  step { s with schedule := e :: s.schedule }

/-- The host program after a step of the FCC. -/
def HostRun.resume (ops : State → List HostOp) :
    Host.Outcome State Fault Refusal → Host.Outcome HostRun Fault Refusal
  | .next t => .next { ops := ops t, state := t }
  | .fault r => .fault r
  | .refused r => .refused r

/-- One slot of the order. -/
def HostRun.slot (r : HostRun) : Slot → Host.Outcome HostRun Fault Refusal
  | .engine => HostRun.resume (fun _ => r.ops) (r.state.stepEvent .engine)
  | .host =>
    match r.ops with
    | [] => .next r
    | op :: rest => HostRun.resume (op.next rest) (r.state.stepEvent (.host op.transaction))

/-- A host program run in a given order of slots. Which slots the engine has is the latency, which is open
(40_command_cycle.md R144): the order is the argument, and it may put an engine step anywhere between two transactions
of the host. DESIGN CHOICE, safe (log 12). -/
def HostRun.run : List Slot → HostRun → Host.Outcome HostRun Fault Refusal
  | [], r => .next r
  | c :: cs, r =>
    match r.slot c with
    | .next r' => HostRun.run cs r'
    | .fault e => .fault e
    | .refused e => .refused e

end Sys2Proof.Machine
end

