-- ==== Sys2Proof/Safety.lean ====
section
/-! DEFINITION. What holds of every state a run reaches, and what a safe run is. -/

namespace Sys2Proof.Machine

/-- STATUS.ECODE and ERRCMD (10_state.md R42, R44): both 0 while ERR = 0; a code that can be raised while ERR = 1
(60_exceptions.md R280, R282). -/
abbrev State.errorsOk (s : State) : Prop :=
  (s.err = false → s.ecode = 0 ∧ s.errcmd = 0) ∧
  (s.err = true → s.ecode ∈ [1, 3, 4, 5, 6])

/-- PADRES is 0, or PLEN is 1..8 and VCNT = 8 - PLEN (10_state.md R52). -/
abbrev State.padresOk (s : State) : Prop :=
  (s.plen = 0 ∧ s.vcnt = 0) ∨
  (1 ≤ s.plen.toNat ∧ s.plen.toNat ≤ 8 ∧ s.plen.toNat + s.vcnt.toNat = 8)

/-- BUSY, PEND, CMD and DONE (10_state.md R38, R39, R43, R54): BUSY is 1 exactly while a command is pending; CMD holds
the pending word; DONE is 0 while one is pending. -/
abbrev State.pendingOk (s : State) : Prop :=
  s.busy = s.pend.isSome ∧
  (∀ w, s.pend = some w → s.cmd = w ∧ s.done = false)

/-- BUF is in canonical form and holds no byte outside 0..BUF_BYTES-1 (10_state.md R53). -/
abbrev State.bufOk (s : State) : Prop :=
  s.buf.wf ∧ ∀ c ∈ s.buf, c.1 < s.cfg.bufBytes

/-- While the reset input is asserted the state is held at its reset values (70_reset_and_hazards.md R320). -/
abbrev State.resetOk (s : State) : Prop := s.rst = true → s = s.clear

/-- The invariant of the FCC: from any state that has it, a step gives a state that has it. -/
structure Inv (s : State) : Prop where
  cfg : s.cfg.wf
  pending : s.pendingOk
  errors : s.errorsOk
  padres : s.padresOk
  buf : s.bufOk
  reset : s.resetOk

/-- A platform that keeps 70_reset_and_hazards.md R320: no host transaction comes while the reset input, whose level
now is `rst`, is asserted. -/
def legalSchedule : Bool → List Event → Bool
  | _, [] => true
  | rst, .host _ :: es => !rst && legalSchedule rst es
  | rst, .engine :: es => legalSchedule rst es
  | _, .assertReset :: es => legalSchedule true es
  | _, .releaseReset :: es => legalSchedule false es

/-- A step is safe where it answers a next state. -/
def StepSafe (s : State) : Prop := ∃ t, step s = .next t

end Sys2Proof.Machine
end

