-- ==== Sys2Proof/Certificates/Slice0/Obligations.lean ====
section
/-! DEFINITION. The statements for the provers. Arithmetic is restated on natural numbers as 00_scope.md R10 defines its
operators, so that a statement does not repeat the model's own bit-vector text. -/

namespace Sys2Proof.Arith

/-- NOT a at width w: (2^w - 1) - a (R10). -/
def notN (w a : Nat) : Nat := 2 ^ w - 1 - a

/-- Rotation left at width w (41_bit_utilities.md R161, R162) on numbers. -/
def rotl (w x s : Nat) : Nat :=
  if s % w = 0 then x else (x * 2 ^ (s % w)) % 2 ^ w ||| x / 2 ^ (w - s % w)

/-- F(r, k, n) in the nine steps of 44_round_function.md R221, on numbers. -/
def roundF (r k n : Nat) : Nat :=
  let a := r ^^^ k
  let b := a * 0x9E3779B1 % 2 ^ 32
  let andDirect := a &&& b
  let andViaComplement := notN 32 (notN 32 a ||| notN 32 b)
  let orDirect := a ||| b
  let orViaComplement := notN 32 (notN 32 a &&& notN 32 b)
  let t1 := rotl 32 (andDirect ^^^ b) ((3 * n + 5) % 32)
  let t2 := rotl 32 (andViaComplement ^^^ a) ((5 * n + 11) % 32)
  let res6 := ((t1 ^^^ t2) + (orDirect ^^^ orViaComplement)) % 2 ^ 32
  let res7 := rotl 32 res6 ((k % 16 + n) % 32)
  res7 ^^^ ((res7 * 2 ^ 3 % 2 ^ 32) ^^^ (k / 2 ^ (n % 8)))

/-- rk[i] of 43_key_schedule.md R201 for the 64-bit key K, on numbers. -/
def roundKey (K i : Nat) : Nat :=
  let rot := rotl 64 K (8 * i)
  let mixed := ((rot ^^^ (rot / 2 ^ 17)) + rot * 2 ^ 5 % 2 ^ 64) % 2 ^ 64
  (mixed ^^^ (0x9E3779B1 * (i + 1))) % 2 ^ 32

/-- Encryption round n of 45_feistel.md R240 with key k, on numbers. -/
def encRound (k n : Nat) (b : Nat × Nat) : Nat × Nat := (b.2, b.1 ^^^ roundF b.2 k n)

/-- Decryption round n of 45_feistel.md R240 with key k, on numbers. -/
def decRound (k n : Nat) (b : Nat × Nat) : Nat × Nat := (b.2 ^^^ roundF b.1 k n, b.1)

/-- Byte j (0..7) of the block (L, R), byte 0 first (20_memory.md R82), on numbers. -/
def blockByte (L R j : Nat) : Nat := (L * 2 ^ 32 + R) / 256 ^ (7 - j) % 256

/-- A Bool as the number of a bit. -/
def bit (b : Bool) : Nat := if b then 1 else 0

end Sys2Proof.Arith

namespace Sys2Proof.Machine

/-- The state of 10_state.md R58: every register at its reset value, and no byte of BUF written since (R59). -/
def AtReset (t : State) : Prop :=
  t.ieDone = false ∧ t.ieErr = false ∧ t.ieOvr = false ∧
  t.busy = false ∧ t.done = false ∧ t.err = false ∧ t.ovr = false ∧ t.ecode = 0 ∧
  t.pend = none ∧ t.cmd = 0 ∧ t.errcmd = 0 ∧ t.klen = 0 ∧ t.msglen = 0 ∧ t.keyHi = 0 ∧ t.keyLo = 0 ∧
  t.dataL = 0 ∧ t.dataR = 0 ∧ t.rk.rk0 = 0 ∧ t.rk.rk1 = 0 ∧ t.rk.rk2 = 0 ∧ t.rk.rk3 = 0 ∧
  t.fin = 0 ∧ t.fkey = 0 ∧ t.fout = 0 ∧ t.plen = 0 ∧ t.vcnt = 0 ∧
  (∀ o, t.bufByte o = Config.bufDraw t.draws o) ∧ t.irq = false

/-- The state after a command with word w has failed with a code (60_exceptions.md R281), no other write made. -/
def failedWith (s : State) (w : Word) (code : BitVec 4) : State :=
  { s with
    busy := false
    pend := none
    done := true
    err := true
    ecode := if s.err then s.ecode else code
    errcmd := if s.err then s.errcmd else w }

/-- The address lies in the BUF window (20_memory.md R80). -/
def inWindow (c : Config) (a : HostAddr) : Prop := 0x1000 ≤ a.toNat ∧ a.toNat < 0x1000 + c.bufBytes

/-- The address names a member of the input set IN (10_state.md R62): CMD, KEYLEN to FKEY, or the BUF window. -/
def inInputSet (c : Config) (a : HostAddr) : Prop :=
  a.toNat % 4 = 0 ∧ (a.toNat = 0x10 ∨ (0x18 ≤ a.toNat ∧ a.toNat ≤ 0x44) ∨ inWindow c a)

/-- The address names a member of the result set OUT (10_state.md R62): MSGLEN, DATA_L to RK3, FOUT, PADRES, or the
BUF window. -/
def inResultSet (c : Config) (a : HostAddr) : Prop :=
  a.toNat % 4 = 0 ∧
  (a.toNat = 0x1C ∨ (0x28 ≤ a.toNat ∧ a.toNat ≤ 0x3C) ∨ a.toNat = 0x48 ∨ a.toNat = 0x4C ∨ inWindow c a)

/-- The words that 30_encoding.md R118 lists as illegal, w read as OPC = w mod 256 and the rest w div 256. -/
def illegalWord (w : Nat) : Prop :=
  9 ≤ w % 256 ∨
  (w % 256 ≤ 8 ∧ w % 256 ≠ 4 ∧ w % 256 ≠ 5 ∧ w / 256 ≠ 0) ∨
  (w % 256 = 4 ∧ (w / 256 % 32 = 0 ∨ w / 2 ^ 13 ≠ 0)) ∨
  (w % 256 = 5 ∧ w / 2 ^ 11 ≠ 0)

/-- A pending word that is `bad` fails with code 5 at the engine's turn (the Errors line of a command's rule). -/
def badWordFails (bad : Nat → Prop) : Prop :=
  ∀ (s : State) (w : Word), s.rst = false → s.pend = some w → bad w.toNat → engineTurn s = .next (failedWith s w 5)

/-- Every format-N word of this opcode but the opcode itself fails (30_encoding.md R112, R118). -/
def onlyWord (opc : Nat) : Prop := badWordFails fun w => w % 256 = opc ∧ w ≠ opc

/-- The block (L, R) ends in right padding of length p (42_padding.md R183). -/
def padded (s : State) (p : Nat) : Prop :=
  p = s.dataR.toNat % 256 ∧ 1 ≤ p ∧ p ≤ 8 ∧
  ∀ j, 8 - p ≤ j → j < 8 → Arith.blockByte s.dataL.toNat s.dataR.toNat j = p

/-- The step's event resets every register: the reset input or a soft reset (10_state.md R36, 70 R320). -/
def resetEvent (e : Event) : Prop :=
  e = .assertReset ∨ ∃ v : Word, e = .host (.write 0x008 v) ∧ v[31] = true

end Sys2Proof.Machine

open Sys2Proof Sys2Proof.Machine

/-! ### Encoding -/

/-- Words of 30_encoding.md R116 written out decode to their commands. -/
def Obligations.SampleWordsDecode : Prop :=
  decode 0b00000000000000000000000000000000 = .ok .nop ∧
  decode 0b00000000000000000000000000000001 = .ok .keyexp ∧
  decode 0b00000000000000000000000000000010 = .ok .encblk ∧
  decode 0b00000000000000000000000000000011 = .ok .decblk ∧
  decode 0b00000000000000000001111100000100 = .ok (.feval 31) ∧
  decode 0b00000000000000000000011100000101 = .ok (.padblk 7) ∧
  decode 0b00000000000000000000000000000110 = .ok .unpadblk ∧
  decode 0b00000000000000000000000000000111 = .ok .encmsg ∧
  decode 0b00000000000000000000000000001000 = .ok .decmsg

/-- Decoding the word of a command that has one gives the command back (30_encoding.md R116, R117). -/
def Obligations.DecodeOfEncodeIsTheCommand : Prop :=
  ∀ i : Instr, i.wf = true → decode (encode i) = .ok i

/-- A word that decodes is the one word of its command: no bit of it is dropped (30_encoding.md R116 to R118). -/
def Obligations.DecodedWordIsTheCommandsWord : Prop :=
  ∀ (w : Word) (i : Instr), decode w = .ok i → i.wf = true ∧ encode i = w

/-- 30_encoding.md R118: exactly the listed words are illegal, and an illegal word fails with code 5 and changes
nothing but STATUS and ERRCMD (and PEND, which becomes none). -/
def Obligations.IllegalWordsFailWithCodeFive : Prop :=
  (∀ w : Word, (∃ e, decode w = .error e) ↔ illegalWord w.toNat) ∧
  (∀ (s : State) (w : Word), s.rst = false → s.pend = some w → illegalWord w.toNat →
    engineTurn s = .next (failedWith s w 5))

/-! ### Reset and the invariant -/

/-- The state after reset has the invariant. -/
def Obligations.ResetStateHasTheInvariant : Prop := Inv State.reset

/-- Every step keeps the invariant: BUSY is PEND (10_state.md R38, R54), CMD holds the pending word (R43), DONE is 0
while one is pending (R39), ECODE and ERRCMD are 0 while ERR = 0 and a raised code while ERR = 1 (R42, R44,
60_exceptions.md R282), PADRES has its form (R52), BUF stays inside BUF_BYTES and in canonical form (R53), and the
state is held while the reset input is asserted (70 R320). -/
def Obligations.EveryStepKeepsTheInvariant : Prop :=
  ∀ s t : State, Inv s → step s = .next t → Inv t

/-- 10_state.md R58: the reset state, and the state after a hardware reset and after a soft reset from any state, in
which ID and PARAM read their constants. -/
def Obligations.ResetValuesHoldAfterEveryReset : Prop :=
  AtReset State.reset ∧
  (∀ s : State, AtReset s.assertReset ∧ s.assertReset.hostRead 0x000 = (0x46434331, .okay) ∧
    s.assertReset.hostRead 0x004 = s.hostRead 0x004) ∧
  (∀ (s : State) (v : Word), v[31] = true →
    AtReset (s.hostWrite 0x008 v).1 ∧ (s.hostWrite 0x008 v).1.hostRead 0x000 = (0x46434331, .okay) ∧
    (s.hostWrite 0x008 v).1.hostRead 0x004 = s.hostRead 0x004)

/-- 70_reset_and_hazards.md R320: asserting the reset input puts every register to its reset value; while it is
asserted the engine's turn changes nothing of the FCC and a host transaction is refused; after its release the FCC is
idle, IRQ is low and every register has its reset value. The events are the model's choice (logs 5, 7). -/
def Obligations.ResetInputHoldsTheMachine : Prop :=
  (∀ s : State, s.nextEvent = .assertReset → ∃ t, step s = .next t ∧ AtReset t ∧ t.rst = true) ∧
  (∀ s : State, Inv s → s.rst = true → s.nextEvent = .engine → ∃ t, step s = .next t ∧ AtReset t ∧ t.rst = true) ∧
  (∀ (s : State) (x : Txn), s.rst = true → s.nextEvent = .host x → step s = .refused .hostDuringReset) ∧
  (∀ s : State, Inv s → s.rst = true → s.nextEvent = .releaseReset →
    ∃ t, step s = .next t ∧ AtReset t ∧ t.rst = false ∧ t.busy = false ∧ t.pend = none ∧ t.irq = false)

/-- A platform that issues no transaction while the reset input is asserted never meets a refusal, and no step ever
faults: the FCC has no state from which it cannot proceed (93). The schedule is the model's choice (log 5). -/
def Obligations.LegalScheduleIsNeverStopped : Prop :=
  ∀ s : State, legalSchedule s.rst s.schedule = true →
    StepSafe s ∧ ∀ t, step s = .next t → legalSchedule t.rst t.schedule = true

/-! ### The host port -/

/-- 20_memory.md R90: a misaligned or unmapped access gets SLVERR, reads 0 and has no effect, IRQ's inputs included. -/
def Obligations.MisalignedOrUnmappedGetsSlverr : Prop :=
  ∀ (s : State) (a : HostAddr) (v : Word),
    (a.toNat % 4 ≠ 0 ∨ (0x050 ≤ a.toNat ∧ a.toNat ≤ 0x0FFF) ∨ 0x1000 + s.cfg.bufBytes ≤ a.toNat) →
    s.hostRead a = (0, .slverr) ∧ s.hostWrite a v = (s, .slverr)

/-- Every aligned address of the register block and of the BUF window answers OKAY, read or written. -/
def Obligations.MappedAccessGetsOkay : Prop :=
  ∀ (s : State) (a : HostAddr) (v : Word), a.toNat % 4 = 0 → (a.toNat ≤ 0x04F ∨ inWindow s.cfg a) →
    (s.hostRead a).2 = .okay ∧ (s.hostWrite a v).2 = .okay

/-- 20_memory.md R88 with the layouts of 10_state.md R33 to R52, each value as a number. What a busy read of the result
set gives is a free value (20_memory.md R93; log 3): the statement holds for every value of it. -/
def Obligations.HostReadGivesTheRegistersValue : Prop :=
  ∀ s : State, s.cfg.wf →
    s.hostRead 0x000 = (0x46434331, .okay) ∧
    ((s.hostRead 0x004).1.toNat = s.cfg.bufBytes + 4 * 2 ^ 16 + 8 * 2 ^ 20) ∧
    ((s.hostRead 0x008).1.toNat = Arith.bit s.ieDone + 2 * Arith.bit s.ieErr + 4 * Arith.bit s.ieOvr) ∧
    ((s.hostRead 0x00C).1.toNat =
      Arith.bit s.busy + 2 * Arith.bit s.done + 4 * Arith.bit s.err + 8 * Arith.bit s.ovr + 256 * s.ecode.toNat) ∧
    s.hostRead 0x010 = (s.cmd, .okay) ∧ s.hostRead 0x014 = (s.errcmd, .okay) ∧
    ((s.hostRead 0x018).1.toNat = s.klen.toNat) ∧
    s.hostRead 0x020 = (s.keyHi, .okay) ∧ s.hostRead 0x024 = (s.keyLo, .okay) ∧
    s.hostRead 0x040 = (s.fin, .okay) ∧ s.hostRead 0x044 = (s.fkey, .okay) ∧
    (s.busy = true → ∀ a, inResultSet s.cfg a → s.hostRead a = (Config.busyDraw s.draws a.toNat, .okay)) ∧
    (s.busy = false →
      s.hostRead 0x01C = (s.msglen, .okay) ∧
      s.hostRead 0x028 = (s.dataL, .okay) ∧ s.hostRead 0x02C = (s.dataR, .okay) ∧
      s.hostRead 0x030 = (s.rk.rk0, .okay) ∧ s.hostRead 0x034 = (s.rk.rk1, .okay) ∧
      s.hostRead 0x038 = (s.rk.rk2, .okay) ∧ s.hostRead 0x03C = (s.rk.rk3, .okay) ∧
      s.hostRead 0x048 = (s.fout, .okay) ∧
      ((s.hostRead 0x04C).1.toNat = s.plen.toNat + 256 * s.vcnt.toNat) ∧
      ∀ a, a.toNat % 4 = 0 → inWindow s.cfg a → (s.hostRead a).2 = .okay ∧
        (s.hostRead a).1.toNat =
          (s.bufByte (a.toNat - 0x1000)).toNat * 2 ^ 24 + (s.bufByte (a.toNat - 0x1000 + 1)).toNat * 2 ^ 16 +
          (s.bufByte (a.toNat - 0x1000 + 2)).toNat * 2 ^ 8 + (s.bufByte (a.toNat - 0x1000 + 3)).toNat)

/-- A step whose event is a host read changes no state of the FCC: the port answers and the step's turn passes
(20_memory.md R95). The schedule, the draw counter and the answer field are the model's choice (logs 4, 5, 6). -/
def Obligations.HostReadChangesNoRegister : Prop :=
  ∀ (s : State) (a : HostAddr) (es : List Event), s.rst = false → s.schedule = .host (.read a) :: es →
    ∃ v r, step s = .next { s with schedule := es, draws := s.draws + 1, port := some (.read v r) } ∧
      (v, r) = ({ s with schedule := es, draws := s.draws + 1 } : State).hostRead a

/-- A step whose event is a host write performs that write, whole (20_memory.md R94). The schedule, the draw
counter and the answer field are the model's choice (logs 4, 5, 6). -/
def Obligations.HostWriteStepPerformsTheWrite : Prop :=
  ∀ (s : State) (a : HostAddr) (v : Word) (es : List Event), s.rst = false →
    s.schedule = .host (.write a v) :: es →
    ∃ t r, ({ s with schedule := es, draws := s.draws + 1 } : State).hostWrite a v = (t, r) ∧
      step s = .next { t with port := some (.write r) }

/-- 10_state.md R57: a write to ID, PARAM, ERRCMD, FOUT or PADRES has no effect, busy or not. -/
def Obligations.ReadOnlyRegistersIgnoreWrites : Prop :=
  ∀ (s : State) (a : HostAddr) (v : Word), a ∈ [0x000, 0x004, 0x014, 0x048, 0x04C] →
    s.hostWrite a v = (s, .okay)

/-- 20_memory.md R89 cases 7 and 8: a data register written while idle reads back (KEYLEN its low 4 bits), and every
other address reads as before. -/
def Obligations.DataRegisterReadsBackAndOthersKeep : Prop :=
  ∀ (s : State) (a : HostAddr) (v : Word), s.busy = false → a.toNat % 4 = 0 → 0x18 ≤ a.toNat → a.toNat ≤ 0x44 →
    ∃ t, s.hostWrite a v = (t, .okay) ∧
      (a = 0x18 → (t.hostRead a).1.toNat = v.toNat % 16) ∧
      (a ≠ 0x18 → t.hostRead a = (v, .okay)) ∧
      (∀ b, b ≠ a → t.hostRead b = s.hostRead b)

/-- 20_memory.md R83 and R84: a window word reads as its four bytes, most significant first; a word written to the
window sets those four bytes and nothing else, and reads back. -/
def Obligations.WindowWriteSetsFourBytes : Prop :=
  ∀ (s : State) (a : HostAddr) (v : Word), s.busy = false → a.toNat % 4 = 0 → inWindow s.cfg a →
    ((s.hostRead a).2 = .okay ∧ (s.hostRead a).1.toNat =
      (s.bufByte (a.toNat - 0x1000)).toNat * 2 ^ 24 + (s.bufByte (a.toNat - 0x1000 + 1)).toNat * 2 ^ 16 +
      (s.bufByte (a.toNat - 0x1000 + 2)).toNat * 2 ^ 8 + (s.bufByte (a.toNat - 0x1000 + 3)).toNat) ∧
    ∃ t, s.hostWrite a v = (t, .okay) ∧ t = { s with buf := t.buf } ∧
      (t.bufByte (a.toNat - 0x1000)).toNat = v.toNat / 2 ^ 24 ∧
      (t.bufByte (a.toNat - 0x1000 + 1)).toNat = v.toNat / 2 ^ 16 % 256 ∧
      (t.bufByte (a.toNat - 0x1000 + 2)).toNat = v.toNat / 2 ^ 8 % 256 ∧
      (t.bufByte (a.toNat - 0x1000 + 3)).toNat = v.toNat % 256 ∧
      (∀ j, j < a.toNat - 0x1000 ∨ a.toNat - 0x1000 + 4 ≤ j → t.bufByte j = s.bufByte j) ∧
      t.hostRead a = (v, .okay)

/-- 10_state.md R37: the fields of STATUS as it reads; a write to it clears DONE, ERR with ECODE and ERRCMD, and OVR
where bits 1, 2 and 3 are 1, and nothing else, busy or not. -/
def Obligations.StatusWriteIsWriteOneToClear : Prop :=
  ∀ (s : State) (v : Word),
    (s.hostRead 0x00C).1.toNat =
      Arith.bit s.busy + 2 * Arith.bit s.done + 4 * Arith.bit s.err + 8 * Arith.bit s.ovr + 256 * s.ecode.toNat ∧
    s.hostWrite 0x00C v =
      ({ s with
         done := s.done && !(v.toNat / 2 % 2 == 1)
         err := s.err && !(v.toNat / 4 % 2 == 1)
         ecode := if v.toNat / 4 % 2 = 1 then 0 else s.ecode
         errcmd := if v.toNat / 4 % 2 = 1 then 0 else s.errcmd
         ovr := s.ovr && !(v.toNat / 8 % 2 == 1) }, .okay)

/-- 10_state.md R35: the fields of CTRL as it reads; a write to it with bit 31 = 0 sets the three enables and nothing
else, busy or not, and IRQ follows them. -/
def Obligations.CtrlWriteSetsTheEnables : Prop :=
  (∀ s : State,
    (s.hostRead 0x008).1.toNat = Arith.bit s.ieDone + 2 * Arith.bit s.ieErr + 4 * Arith.bit s.ieOvr) ∧
  ∀ (s : State) (v : Word), v.toNat < 2 ^ 31 →
    s.hostWrite 0x008 v =
      ({ s with
         ieDone := v.toNat % 2 == 1
         ieErr := v.toNat / 2 % 2 == 1
         ieOvr := v.toNat / 4 % 2 == 1 }, .okay) ∧
    ((s.hostWrite 0x008 v).1.irq = true ↔
      (v.toNat % 2 = 1 ∧ s.done = true) ∨ (v.toNat / 2 % 2 = 1 ∧ s.err = true) ∨
      (v.toNat / 4 % 2 = 1 ∧ s.ovr = true))

/-- 10_state.md R36: a write to CTRL with bit 31 = 1 resets every register, discards a pending command without
completing it, and leaves CTRL reading 0. BUF_BYTES, the schedule, the reset input and the draw counter stay, the
model's choice (logs 1, 4, 5, 7). -/
def Obligations.SoftResetDiscardsThePendingCommand : Prop :=
  ∀ (s : State) (v : Word), 2 ^ 31 ≤ v.toNat →
    ∃ t, s.hostWrite 0x008 v = (t, .okay) ∧ AtReset t ∧ t.hostRead 0x008 = (0, .okay) ∧
      t.cfg = s.cfg ∧ t.schedule = s.schedule ∧ t.rst = s.rst ∧ t.draws = s.draws

/-- 20_memory.md R92: while busy a write to the input set is dropped and sets OVR; writes to CTRL and STATUS are
performed normally. -/
def Obligations.BusyWriteIsDroppedAndSetsOvr : Prop :=
  ∀ (s : State) (a : HostAddr) (v : Word), s.busy = true →
    (inInputSet s.cfg a → s.hostWrite a v = ({ s with ovr := true }, .okay)) ∧
    (s.hostWrite 0x00C v =
      ({ (({ s with busy := false } : State).hostWrite 0x00C v).1 with busy := true }, .okay)) ∧
    (v[31] = false → s.hostWrite 0x008 v =
      ({ (({ s with busy := false } : State).hostWrite 0x008 v).1 with busy := true }, .okay)) ∧
    (v[31] = true → AtReset (s.hostWrite 0x008 v).1)

/-- 40_command_cycle.md R141: a write to CMD while idle accepts any word, legal or not; while busy it is no
acceptance. -/
def Obligations.CmdWriteWhileIdleAcceptsTheWord : Prop :=
  ∀ (s : State) (w : Word),
    (s.busy = false →
      s.hostWrite 0x010 w = ({ s with cmd := w, pend := some w, busy := true, done := false }, .okay)) ∧
    (s.busy = true → (s.hostWrite 0x010 w).1.pend = s.pend ∧ (s.hostWrite 0x010 w).1.cmd = s.cmd)

/-- 10_state.md R55: IRQ, and the same level from the two words the host reads: CTRL bit i enables STATUS bit i + 1. -/
def Obligations.IrqIsTheEnabledPendingFlags : Prop :=
  (∀ s : State, s.irq = true ↔
    (s.ieDone = true ∧ s.done = true) ∨ (s.ieErr = true ∧ s.err = true) ∨ (s.ieOvr = true ∧ s.ovr = true)) ∧
  (∀ s : State, s.irq = true ↔ (s.hostRead 0x008).1 &&& ((s.hostRead 0x00C).1 >>> 1) &&& 7 ≠ 0) ∧
  State.reset.irq = false

/-! ### The command cycle -/

/-- When the pending word decodes to a command and the engine has its turn, the step is the command's meaning at the
state whose turn has passed (40_command_cycle.md R143). Where nothing is pending, the turn changes no register. The schedule
and the draw counter are the model's choice (logs 4, 5). -/
def Obligations.StepRunsThePendingCommand : Prop :=
  (∀ (s : State) (w : Word) (i : Instr), s.rst = false → s.pend = some w → decode w = .ok i →
    (s.schedule = [] ∨ s.schedule.head? = some .engine) →
    step s = exec i { s with schedule := s.schedule.tail, draws := s.draws + 1 }) ∧
  (∀ s : State, s.pend = none → (s.schedule = [] ∨ s.schedule.head? = some .engine) →
    step s = .next { s with schedule := s.schedule.tail, draws := s.draws + 1 })

/-- The next step after withFetchWord runs the word as a command that was just accepted. withFetchWord is the model's
choice (log 8). -/
def Obligations.FetchWordIsRunByTheNextStep : Prop :=
  ∀ (s : State) (w : Word) (i : Instr), decode w = .ok i →
    step (s.withFetchWord 32 w.toNat) =
      exec i { s with
        cmd := w, pend := some w, busy := true, done := false, rst := false, draws := s.draws + 1 }

/-- Every command terminates and completes: it answers a next state that is idle with DONE = 1 (40_command_cycle.md
R143, R145, 60_exceptions.md R281). -/
def Obligations.EveryCommandCompletes : Prop :=
  ∀ (i : Instr) (s : State), ∃ t, exec i s = .next t ∧ t.busy = false ∧ t.pend = none ∧ t.done = true

/-- First-error capture with the codes of 60_exceptions.md R280 (R281, 10_state.md R42, R44). -/
def Obligations.FailureRecordsTheFirstError : Prop :=
  (∀ (s : State) (e : ErrCode) (w : Word), s.pend = some w → s.fail e = failedWith s w e.code) ∧
  (ErrCode.keyLength.code = 1 ∧ ErrCode.padding.code = 3 ∧ ErrCode.ciphertextLength.code = 4 ∧
    ErrCode.illegalCommand.code = 5 ∧ ErrCode.messageLength.code = 6)

/-- 40_command_cycle.md R140: only an accepted CMD write makes a command pending; only the engine step and a reset end
it, and the engine step does; the pending word never changes. -/
def Obligations.PendingCommandLifecycle : Prop :=
  ∀ s t : State, Inv s → step s = .next t →
    (t.busy = true ↔ t.pend ≠ none) ∧
    (s.pend = none → ∀ w, t.pend = some w ↔ s.nextEvent = .host (.write 0x010 w)) ∧
    (resetEvent s.nextEvent → t.pend = none) ∧
    (s.pend ≠ none → t.pend = none → s.nextEvent = .engine ∨ resetEvent s.nextEvent) ∧
    (∀ w, s.pend = some w → s.nextEvent = .engine → t.pend = none ∧ t.busy = false) ∧
    (∀ w w', s.pend = some w → t.pend = some w' → w' = w)

/-- ERR is set only by a failing command at the engine's turn and cleared only by a host write of 1 to STATUS bit 2 or
by a reset (10_state.md R40); ECODE and ERRCMD change only where ERR changes (R42, R44). -/
def Obligations.ErrIsStickyUntilAcknowledged : Prop :=
  ∀ s t : State, Inv s → step s = .next t →
    (s.err = false → t.err = true → s.nextEvent = .engine ∧ s.pend ≠ none ∧ some t.errcmd = s.pend) ∧
    (s.err = true → t.err = false →
      (∃ v : Word, s.nextEvent = .host (.write 0x00C v) ∧ v[2] = true) ∨ resetEvent s.nextEvent) ∧
    (s.err = t.err → t.ecode = s.ecode ∧ t.errcmd = s.errcmd)

/-- 10_state.md R41: OVR is set by a dropped busy write and by nothing else, leaves ERR and ECODE alone, and stays until
the host writes 1 to STATUS bit 3 or a reset. -/
def Obligations.OvrRecordsDroppedWrites : Prop :=
  ∀ s t : State, step s = .next t →
    (s.ovr = false → t.ovr = true →
      s.busy = true ∧ ∃ a v, s.nextEvent = .host (.write a v) ∧ inInputSet s.cfg a) ∧
    (∀ a v, s.busy = true → s.nextEvent = .host (.write a v) → inInputSet s.cfg a →
      t.ovr = true ∧ t.err = s.err ∧ t.ecode = s.ecode) ∧
    (s.ovr = true → t.ovr = false →
      (∃ v : Word, s.nextEvent = .host (.write 0x00C v) ∧ v[3] = true) ∨ resetEvent s.nextEvent)

/-- 10_state.md R39: an accepted command clears DONE, every completion sets it, and it is cleared only by acceptance, a
host write of 1 to STATUS bit 1, or a reset. -/
def Obligations.DoneIsSetByEveryCompletion : Prop :=
  ∀ s t : State, Inv s → step s = .next t →
    (∀ w, s.pend = some w → s.nextEvent = .engine → t.done = true) ∧
    (s.pend = none → t.pend ≠ none → t.done = false) ∧
    (s.done = false → t.done = true → s.nextEvent = .engine ∧ s.pend ≠ none) ∧
    (s.done = true → t.done = false →
      (s.busy = false ∧ ∃ w, s.nextEvent = .host (.write 0x010 w)) ∨
      (∃ v : Word, s.nextEvent = .host (.write 0x00C v) ∧ v[1] = true) ∨ resetEvent s.nextEvent)

/-- The master key and its length change only by a host write to their register while idle, or by a reset: no command
changes them (10_state.md R45, R47). -/
def Obligations.OnlyHostWritesChangeTheKey : Prop :=
  ∀ s t : State, step s = .next t →
    (t.keyHi ≠ s.keyHi →
      (s.busy = false ∧ s.nextEvent = .host (.write 0x020 t.keyHi)) ∨ resetEvent s.nextEvent) ∧
    (t.keyLo ≠ s.keyLo →
      (s.busy = false ∧ s.nextEvent = .host (.write 0x024 t.keyLo)) ∨ resetEvent s.nextEvent) ∧
    (t.klen ≠ s.klen →
      (s.busy = false ∧ ∃ v, s.nextEvent = .host (.write 0x018 v)) ∨ resetEvent s.nextEvent)

/-- ID and PARAM never change (10_state.md R33, R34): BUF_BYTES is the same after every step. -/
def Obligations.IdAndParamNeverChange : Prop :=
  ∀ s t : State, step s = .next t →
    t.cfg = s.cfg ∧ t.hostRead 0x000 = s.hostRead 0x000 ∧ t.hostRead 0x004 = s.hostRead 0x004

/-- `run <cmd>` (30_encoding.md R124) from an idle state (40_command_cycle.md R140), at every latency (R144), the engine
having its slots before, between and after the host's transactions in any number. No slot stops; once the loop of `wait`
has ended, the command has been performed once and whole and the loop's last read saw its completion (20_memory.md R99);
and the loop has ended once an engine step has come after the write to CMD and a poll after that. The order of the slots
is the model's argument for the open latency (logs 5, 12), and the draw counter and the port's answer are its own fields
(logs 4, 6). -/
def Obligations.RunStatementCompletesAtEveryLatency : Prop :=
  ∀ (i : Instr) (s : State) (w : Word) (ops : List HostOp),
    s.rst = false → s.busy = false → s.pend = none → assemble i = some w → (HostStmt.run i).ops = some ops →
    (∀ slots : List Slot, ∃ r, HostRun.run slots { ops := ops, state := s } = .next r ∧
      (r.ops = [] →
        r.state.busy = false ∧ r.state.pend = none ∧ r.state.done = true ∧
        ∃ (v : Word) (u u' : State),
          r.state.port = some (.read v .okay) ∧ v[0] = false ∧ v[1] = true ∧
          u = { s.accept w with draws := u.draws, port := u.port } ∧
          exec i u = .next u' ∧
          r.state = { u' with draws := r.state.draws, port := r.state.port })) ∧
    (∀ a b c : List Slot, ∃ r,
      HostRun.run (a ++ .host :: b ++ .engine :: c ++ [.host]) { ops := ops, state := s } = .next r ∧ r.ops = [])

/-! ### The commands -/

/-- 40_command_cycle.md R147: NOP completes with no other effect; a word with OPC 0 and any other bit set fails. -/
def Obligations.NopOnlyCompletes : Prop :=
  encode .nop = 0 ∧ onlyWord 0 ∧
  (∀ s : State, exec .nop s = .next { s with busy := false, pend := none, done := true })

/-- 43_key_schedule.md R202 with the schedule of R201 on numbers: KEYEXP writes RK0..RK3 and completes where KLEN = 8,
and fails with KEY_LENGTH and RK unchanged where it is not. -/
def Obligations.KeyexpDerivesTheRoundKeys : Prop :=
  encode .keyexp = 1 ∧ onlyWord 1 ∧
  (∀ s : State, s.klen = 8 →
    ∃ k : RoundKeys, exec .keyexp s = .next { s with rk := k, busy := false, pend := none, done := true } ∧
      k.rk0.toNat = Arith.roundKey (s.keyHi.toNat * 2 ^ 32 + s.keyLo.toNat) 0 ∧
      k.rk1.toNat = Arith.roundKey (s.keyHi.toNat * 2 ^ 32 + s.keyLo.toNat) 1 ∧
      k.rk2.toNat = Arith.roundKey (s.keyHi.toNat * 2 ^ 32 + s.keyLo.toNat) 2 ∧
      k.rk3.toNat = Arith.roundKey (s.keyHi.toNat * 2 ^ 32 + s.keyLo.toNat) 3) ∧
  (∀ (s : State) (w : Word), s.pend = some w → s.klen ≠ 8 → exec .keyexp s = .next (failedWith s w 1))

/-- 44_round_function.md R221 and R223: for each n in 1..31, the operands that a word carries (30_encoding.md R113),
FEVAL n writes FOUT with F(FIN, FKEY, n), computed on numbers. -/
def Obligations.FevalComputesTheRoundFunction : Prop :=
  (badWordFails fun w => w % 256 = 4 ∧ (w / 256 % 32 = 0 ∨ w / 2 ^ 13 ≠ 0)) ∧
  (∀ n, 1 ≤ n → n ≤ 31 →
    encode (.feval n) = BitVec.ofNat 32 (4 + 256 * n) ∧
    ∀ s : State, ∃ v : Word,
      exec (.feval n) s = .next { s with fout := v, busy := false, pend := none, done := true } ∧
      v.toNat = Arith.roundF s.fin.toNat s.fkey.toNat n)

/-- Properties of F that 44_round_function.md R222 derives: it depends on n mod 32 alone, it is the shifted key where
r = k, and it maps (0, 0) to 0. The last clause, exec of FEVAL for every number n, those that no word carries included,
is the model's choice (log 13). -/
def Obligations.RoundFunctionProperties : Prop :=
  (∀ (r k : Word) (n : Nat), roundF r k (n + 32) = roundF r k n) ∧
  (∀ (k : Word) (n : Nat), roundF k k n = k >>> (n % 8)) ∧
  (∀ n : Nat, roundF 0 0 n = 0) ∧
  (∀ (n : Nat) (s : State), ∃ v : Word,
    exec (.feval n) s = .next { s with fout := v, busy := false, pend := none, done := true } ∧
    v.toNat = Arith.roundF s.fin.toNat s.fkey.toNat n)

/-- 45_feistel.md R240 to R242: ENCBLK and DECBLK write DATA_L and DATA_R with the four rounds, on numbers, and
complete whatever KLEN is. -/
def Obligations.BlockCommandsRunFourRounds : Prop :=
  encode .encblk = 2 ∧ encode .decblk = 3 ∧ onlyWord 2 ∧ onlyWord 3 ∧
  (∀ s : State, ∃ l r : Word,
    exec .encblk s = .next { s with dataL := l, dataR := r, busy := false, pend := none, done := true } ∧
    (l.toNat, r.toNat) =
      Arith.encRound s.rk.rk3.toNat 4 (Arith.encRound s.rk.rk2.toNat 3
        (Arith.encRound s.rk.rk1.toNat 2 (Arith.encRound s.rk.rk0.toNat 1 (s.dataL.toNat, s.dataR.toNat))))) ∧
  (∀ s : State, ∃ l r : Word,
    exec .decblk s = .next { s with dataL := l, dataR := r, busy := false, pend := none, done := true } ∧
    (l.toNat, r.toNat) =
      Arith.decRound s.rk.rk0.toNat 1 (Arith.decRound s.rk.rk1.toNat 2
        (Arith.decRound s.rk.rk2.toNat 3 (Arith.decRound s.rk.rk3.toNat 4 (s.dataL.toNat, s.dataR.toNat)))))

/-- 45_feistel.md R243: ENCBLK and DECBLK undo each other while RK is unchanged. -/
def Obligations.DecblkUndoesEncblk : Prop :=
  (∀ s : State, ∃ t u, exec .encblk s = .next t ∧ exec .decblk t = .next u ∧
    u.dataL = s.dataL ∧ u.dataR = s.dataR ∧ t.rk = s.rk) ∧
  (∀ s : State, ∃ t u, exec .decblk s = .next t ∧ exec .encblk t = .next u ∧
    u.dataL = s.dataL ∧ u.dataR = s.dataR ∧ t.rk = s.rk)

/-- 42_padding.md R182: PADBLK c keeps bytes 0..c-1 of the block, sets the others to 8 - c, and completes. -/
def Obligations.PadblkPadsTheBlock : Prop :=
  (badWordFails fun w => w % 256 = 5 ∧ w / 2 ^ 11 ≠ 0) ∧
  ∀ c, c ≤ 7 →
    encode (.padblk c) = BitVec.ofNat 32 (5 + 256 * c) ∧
    ∀ s : State, ∃ l r : Word,
      exec (.padblk c) s = .next { s with dataL := l, dataR := r, busy := false, pend := none, done := true } ∧
      ∀ j, j < 8 → Arith.blockByte l.toNat r.toNat j =
        if j < c then Arith.blockByte s.dataL.toNat s.dataR.toNat j else 8 - c

/-- 42_padding.md R183: UNPADBLK reports PLEN = p and VCNT = 8 - p where the block ends in right padding, and otherwise
clears PADRES and fails with PADDING; DATA is never changed. -/
def Obligations.UnpadblkChecksThePadding : Prop :=
  encode .unpadblk = 6 ∧ onlyWord 6 ∧
  (∀ (s : State) (p : Nat), padded s p →
    exec .unpadblk s = .next
      { s with plen := BitVec.ofNat 4 p, vcnt := BitVec.ofNat 4 (8 - p), busy := false, pend := none, done := true }) ∧
  (∀ (s : State) (w : Word), s.pend = some w → (¬ ∃ p, padded s p) →
    exec .unpadblk s = .next { failedWith s w 3 with plen := 0, vcnt := 0 })

/-- A block padded by PADBLK c is accepted by UNPADBLK, which finds c message bytes (42_padding.md R182, R183). -/
def Obligations.UnpadblkAcceptsPadblksBlock : Prop :=
  ∀ c, c ≤ 7 → ∀ s : State, ∃ t u, exec (.padblk c) s = .next t ∧ exec .unpadblk t = .next u ∧
    u.plen.toNat = 8 - c ∧ u.vcnt.toNat = c ∧ u.err = s.err ∧ u.ecode = s.ecode ∧
    u.dataL = t.dataL ∧ u.dataR = t.dataR

/-- 41_bit_utilities.md R160 to R162 on numbers: split and join are inverse and big-endian, and both rotations take any
integer amount. -/
def Obligations.BitUtilitiesOnNumbers : Prop :=
  (∀ b : List Byte, b.length = 8 →
    joinBlock (splitBlock b) = b ∧
    (splitBlock b).1.toNat * 2 ^ 32 + (splitBlock b).2.toNat = b.foldl (fun x y => x * 256 + y.toNat) 0) ∧
  (∀ b : Block, splitBlock (joinBlock b) = b ∧ (joinBlock b).length = 8) ∧
  (∀ (x : Word) (a : Int), (rotl32 x a).toNat = Arith.rotl 32 x.toNat (a % 32).toNat) ∧
  (∀ (x : DWord) (a : Int), (rotl64 x a).toNat = Arith.rotl 64 x.toNat (a % 64).toNat)

/-- 42_padding.md R180 and R181: pad appends 8 - (n mod 8) bytes of that value; unpad strips exactly a string's right
padding and fails (none) where there is none. -/
def Obligations.PadAndUnpadByTheirDefinition : Prop :=
  (∀ m : List Byte,
    (pad m).length = m.length + (8 - m.length % 8) ∧
    (∀ j, j < m.length → (pad m).getD j 0 = m.getD j 0) ∧
    ∀ j, m.length ≤ j → j < m.length + (8 - m.length % 8) → ((pad m).getD j 0).toNat = 8 - m.length % 8) ∧
  ∀ d m : List Byte, unpad d = some m ↔
    ∃ p, 1 ≤ p ∧ p ≤ 8 ∧ p ≤ d.length ∧
      (∀ j, d.length - p ≤ j → j < d.length → (d.getD j 0).toNat = p) ∧ m = d.take (d.length - p)

/-- 42_padding.md R184: the padding laws. -/
def Obligations.PaddingLaws : Prop :=
  ∀ m : List Byte,
    unpad (pad m) = some m ∧ (pad m).length % 8 = 0 ∧ m.length + 1 ≤ (pad m).length ∧ (pad m).length ≤ m.length + 8

/-- 46_message.md R260: encryptMessage pads and encrypts each 8-byte chunk by itself; decryptMessage fails on a length
that is no multiple of 8, decrypts each chunk by itself and unpads. -/
def Obligations.MessageFunctionsWorkBlockwise : Prop :=
  (∀ (m : List Byte) (K : DWord),
    (encryptMessage m K).length = 8 * (m.length / 8) + 8 ∧
    ∀ (k j : Nat) (l r : Word), 8 * k + 8 ≤ (pad m).length → j < 8 →
      (∀ i, i < 8 → blockByte (l, r) i = (pad m).getD (8 * k + i) 0) →
      (encryptMessage m K).getD (8 * k + j) 0 = blockByte (encrypt (keySchedule K) (l, r)) j) ∧
  (∀ (c : List Byte) (K : DWord), c.length % 8 ≠ 0 → decryptMessage c K = .error .ciphertextLength) ∧
  (∀ (c : List Byte) (K : DWord), c.length % 8 = 0 →
    ∃ d : List Byte, d.length = c.length ∧
      (∀ (k j : Nat) (l r : Word), 8 * k + 8 ≤ c.length → j < 8 →
        (∀ i, i < 8 → blockByte (l, r) i = c.getD (8 * k + i) 0) →
        d.getD (8 * k + j) 0 = blockByte (decrypt (keySchedule K) (l, r)) j) ∧
      (∀ m, decryptMessage c K = .ok m ↔ unpad d = some m) ∧
      (decryptMessage c K = .error .padding ↔ unpad d = none))

/-- 46_message.md R262 with the byte-string function of R260: ENCMSG replaces BUF[0..P-1] by encryptMessage of
BUF[0..n-1], sets MSGLEN and RK0..RK3 and touches nothing else; it fails with KEY_LENGTH first and MESSAGE_LENGTH
second, nothing else changed. An unwritten byte of the message is a free value (log 2). -/
def Obligations.EncmsgEncryptsTheBuffer : Prop :=
  encode .encmsg = 7 ∧ onlyWord 7 ∧
  (∀ s : State, s.cfg.wf → s.klen = 8 → s.msglen.toNat < s.cfg.bufBytes →
    ∃ t, exec .encmsg s = .next t ∧
      t.msglen.toNat = 8 * (s.msglen.toNat / 8) + 8 ∧
      t.message t.msglen.toNat = encryptMessage (s.message s.msglen.toNat) s.masterKey ∧
      (∀ o, t.msglen.toNat ≤ o → t.bufByte o = s.bufByte o) ∧
      t.rk = keySchedule s.masterKey ∧
      t = { s with rk := t.rk, buf := t.buf, msglen := t.msglen, busy := false, pend := none, done := true }) ∧
  (∀ (s : State) (w : Word), s.pend = some w → s.klen ≠ 8 → exec .encmsg s = .next (failedWith s w 1)) ∧
  (∀ (s : State) (w : Word), s.pend = some w → s.klen = 8 → s.cfg.bufBytes ≤ s.msglen.toNat →
    exec .encmsg s = .next (failedWith s w 6))

/-- 46_message.md R264 with the byte-string functions of R260: DECMSG checks in its order; on success BUF[0..n-1] is the
decrypted string, MSGLEN the plaintext's length, PADRES the pad length; on a padding failure BUF[0..n-1] is zero,
PADRES is 0, MSGLEN is kept; RK0..RK3 hold the schedule in both, and nothing else changes. -/
def Obligations.DecmsgDecryptsTheBuffer : Prop :=
  encode .decmsg = 8 ∧ onlyWord 8 ∧
  (∀ (s : State) (w : Word), s.pend = some w → s.msglen.toNat % 8 ≠ 0 →
    exec .decmsg s = .next (failedWith s w 4)) ∧
  (∀ (s : State) (w : Word), s.pend = some w → s.msglen.toNat % 8 = 0 → s.cfg.bufBytes < s.msglen.toNat →
    exec .decmsg s = .next (failedWith s w 6)) ∧
  (∀ (s : State) (w : Word), s.pend = some w → s.msglen.toNat % 8 = 0 → s.msglen.toNat ≤ s.cfg.bufBytes →
    s.klen ≠ 8 → exec .decmsg s = .next (failedWith s w 1)) ∧
  (∀ (s : State) (m : List Byte), s.klen = 8 → s.msglen.toNat ≤ s.cfg.bufBytes →
    decryptMessage (s.message s.msglen.toNat) s.masterKey = .ok m →
    ∃ t, exec .decmsg s = .next t ∧
      t.msglen.toNat = m.length ∧ t.message m.length = m ∧
      t.message s.msglen.toNat = mapChunks (decrypt (keySchedule s.masterKey)) (s.message s.msglen.toNat) ∧
      t.plen.toNat = s.msglen.toNat - m.length ∧ t.vcnt.toNat = 8 - (s.msglen.toNat - m.length) ∧
      (∀ o, s.msglen.toNat ≤ o → t.bufByte o = s.bufByte o) ∧
      t.rk = keySchedule s.masterKey ∧
      t = { s with
        rk := t.rk, buf := t.buf, msglen := t.msglen, plen := t.plen, vcnt := t.vcnt,
        busy := false, pend := none, done := true }) ∧
  (∀ (s : State) (w : Word), s.pend = some w → s.klen = 8 → s.msglen.toNat ≤ s.cfg.bufBytes →
    decryptMessage (s.message s.msglen.toNat) s.masterKey = .error .padding →
    ∃ t, exec .decmsg s = .next t ∧
      (∀ o, o < s.msglen.toNat → t.bufByte o = 0) ∧
      (∀ o, s.msglen.toNat ≤ o → t.bufByte o = s.bufByte o) ∧
      t.rk = keySchedule s.masterKey ∧
      t = { failedWith s w 3 with rk := t.rk, buf := t.buf, plen := 0, vcnt := 0 })

/-- 46_message.md R263: a DECMSG that fails with PADDING leaves no decrypted byte in the buffer, and every earlier
failure leaves the buffer as it was. -/
def Obligations.FailedDecmsgShowsNoPlaintext : Prop :=
  ∀ s t : State, s.err = false → exec .decmsg s = .next t → t.err = true →
    (t.ecode = 3 → ∀ o, o < s.msglen.toNat → t.bufByte o = 0) ∧
    (t.ecode ≠ 3 → ∀ o, t.bufByte o = s.bufByte o)

/-- 46_message.md R265: DECMSG, accepted after ENCMSG has completed, restores MSGLEN and the plaintext bytes. -/
def Obligations.DecmsgRestoresEncmsgsMessage : Prop :=
  ∀ s : State, s.cfg.wf → s.klen = 8 → s.msglen.toNat ≤ s.cfg.bufBytes - 1 →
    ∃ t u, exec .encmsg s = .next t ∧ exec .decmsg (t.accept 0x00000008) = .next u ∧
      u.msglen = s.msglen ∧ u.err = s.err ∧ u.ecode = s.ecode ∧
      ∀ o, o < s.msglen.toNat → u.bufByte o = s.bufByte o

/-- 46_message.md R266: identical plaintext blocks under the same key give identical ciphertext blocks, within one
message and across two. -/
def Obligations.EqualPlaintextBlocksEncryptEqually : Prop :=
  ∀ (s s' t t' : State) (k k' : Nat), s.klen = 8 → s'.klen = 8 →
    s.keyHi = s'.keyHi → s.keyLo = s'.keyLo →
    s.msglen.toNat < s.cfg.bufBytes → s'.msglen.toNat < s'.cfg.bufBytes →
    k < s.msglen.toNat / 8 → k' < s'.msglen.toNat / 8 →
    exec .encmsg s = .next t → exec .encmsg s' = .next t' →
    (∀ j, j < 8 → s.bufByte (8 * k + j) = s'.bufByte (8 * k' + j)) →
    ∀ j, j < 8 → t.bufByte (8 * k + j) = t'.bufByte (8 * k' + j)

/-- The encryption half of 46_message.md R267: the host's own block loop with KEYEXP's keys, ENCBLK on each full block,
and PADBLK then ENCBLK on the last, gives the blocks of ENCMSG. -/
def Obligations.HostBlockLoopEqualsEncmsg : Prop :=
  ∀ s t : State, s.klen = 8 → s.msglen.toNat < s.cfg.bufBytes → exec .encmsg s = .next t →
    ∃ keyed, exec .keyexp s = .next keyed ∧
      (∀ (k : Nat) (l r : Word), k < s.msglen.toNat / 8 →
        (∀ j, j < 8 → blockByte (l, r) j = s.bufByte (8 * k + j)) →
        ∃ u, exec .encblk { keyed with dataL := l, dataR := r } = .next u ∧
          ∀ j, j < 8 → blockByte (u.dataL, u.dataR) j = t.bufByte (8 * k + j)) ∧
      (∀ l r : Word,
        (∀ j, j < s.msglen.toNat % 8 → blockByte (l, r) j = s.bufByte (8 * (s.msglen.toNat / 8) + j)) →
        ∃ u v, exec (.padblk (s.msglen.toNat % 8)) { keyed with dataL := l, dataR := r } = .next u ∧
          exec .encblk u = .next v ∧
          ∀ j, j < 8 → blockByte (v.dataL, v.dataR) j = t.bufByte (8 * (s.msglen.toNat / 8) + j))

/-- The decryption half of 46_message.md R267: DECBLK with KEYEXP's keys on each block gives DECMSG's plaintext where
DECMSG succeeds, and UNPADBLK on the last block succeeds with the same PADRES or fails with PADDING as DECMSG does. -/
def Obligations.HostBlockLoopEqualsDecmsg : Prop :=
  ∀ s t : State, s.klen = 8 → s.err = false → 0 < s.msglen.toNat → s.msglen.toNat % 8 = 0 →
    s.msglen.toNat ≤ s.cfg.bufBytes → exec .decmsg s = .next t →
    ∃ keyed, exec .keyexp s = .next keyed ∧
      (∀ (k : Nat) (l r : Word), k < s.msglen.toNat / 8 →
        (∀ j, j < 8 → blockByte (l, r) j = s.bufByte (8 * k + j)) →
        ∃ u v, exec .decblk { keyed with dataL := l, dataR := r } = .next u ∧ exec .unpadblk u = .next v ∧
          (t.err = false → ∀ j, j < 8 → blockByte (u.dataL, u.dataR) j = t.bufByte (8 * k + j)) ∧
          (8 * k + 8 = s.msglen.toNat →
            v.err = t.err ∧ v.ecode = t.ecode ∧ v.plen = t.plen ∧ v.vcnt = t.vcnt))

/-- 70_reset_and_hazards.md R327: each repetition of ENCMSG on a padded ciphertext appends a full pad block, until the
message no longer fits. -/
def Obligations.RepeatedEncmsgGrowsByEight : Prop :=
  ∀ s t : State, s.cfg.wf → s.klen = 8 → s.msglen.toNat < s.cfg.bufBytes → exec .encmsg s = .next t →
    t.msglen.toNat % 8 = 0 ∧
    (t.msglen.toNat < s.cfg.bufBytes → ∃ u, exec .encmsg (t.accept 0x00000007) = .next u ∧
      u.msglen.toNat = t.msglen.toNat + 8 ∧ u.err = s.err) ∧
    (s.cfg.bufBytes ≤ t.msglen.toNat → ∃ u, exec .encmsg (t.accept 0x00000007) = .next u ∧
      u.msglen = t.msglen ∧ u.err = true ∧ (s.err = false → u.ecode = 6 ∧ u.errcmd = 0x00000007))

/-! ### What commands leave alone -/

/-- The frame of 10_state.md R61, first part: the registers that no command writes, and for each result register and
for BUF the commands that may change it. Every byte of BUF reads as before where the command is none of the message
commands. -/
def Obligations.CommandsWriteOnlyTheirResults : Prop :=
  ∀ (i : Instr) (s t : State), exec i s = .next t →
    (t.keyHi = s.keyHi ∧ t.keyLo = s.keyLo ∧ t.klen = s.klen ∧ t.fin = s.fin ∧ t.fkey = s.fkey ∧ t.cmd = s.cmd ∧
      t.ovr = s.ovr ∧ t.ieDone = s.ieDone ∧ t.ieErr = s.ieErr ∧ t.ieOvr = s.ieOvr) ∧
    (t.cfg = s.cfg ∧ t.rst = s.rst ∧ t.schedule = s.schedule ∧ t.draws = s.draws ∧ t.port = s.port) ∧
    (i ∉ [.keyexp, .encmsg, .decmsg] → t.rk = s.rk) ∧
    ((i ≠ .encblk ∧ i ≠ .decblk ∧ ∀ c, i ≠ .padblk c) → t.dataL = s.dataL ∧ t.dataR = s.dataR) ∧
    ((∀ n, i ≠ .feval n) → t.fout = s.fout) ∧
    (i ∉ [.unpadblk, .decmsg] → t.plen = s.plen ∧ t.vcnt = s.vcnt) ∧
    (i ∉ [.encmsg, .decmsg] → t.msglen = s.msglen ∧ ∀ o, t.bufByte o = s.bufByte o) ∧
    (i ∉ [.keyexp, .unpadblk, .encmsg, .decmsg] → t.err = s.err ∧ t.ecode = s.ecode ∧ t.errcmd = s.errcmd)

/-- The bytes that the message commands store to, on every path: ENCMSG the padded message BUF[0..P-1], DECMSG the
ciphertext's BUF[0..n-1]; every byte outside reads as before (46_message.md R262, R264). -/
def Obligations.MessageCommandsStoreOnlyTheMessage : Prop :=
  (∀ s t : State, exec .encmsg s = .next t →
    ∀ o, 8 * (s.msglen.toNat / 8) + 8 ≤ o → t.bufByte o = s.bufByte o) ∧
  (∀ s t : State, exec .decmsg s = .next t → ∀ o, s.msglen.toNat ≤ o → t.bufByte o = s.bufByte o)

/-- 60_exceptions.md R283 with the table of R280: NOP, ENCBLK, DECBLK, FEVAL and PADBLK raise no error, and the other
commands raise only the codes listed for them. -/
def Obligations.CommandsRaiseOnlyTheirErrors : Prop :=
  ∀ (i : Instr) (s t : State), exec i s = .next t → s.err = false → t.err = true →
    (i = .keyexp ∧ t.ecode = 1) ∨ (i = .unpadblk ∧ t.ecode = 3) ∨
    (i = .encmsg ∧ (t.ecode = 1 ∨ t.ecode = 6)) ∨
    (i = .decmsg ∧ (t.ecode = 1 ∨ t.ecode = 3 ∨ t.ecode = 4 ∨ t.ecode = 6))

/-- 40_command_cycle.md R146: a command's result is a function of the state it reads. Where every byte of the message
has been written, no free value reaches it: the draw counter, the model's own (log 4), makes no
difference. -/
def Obligations.WrittenMessagesLeaveNothingOpen : Prop :=
  ∀ (i : Instr) (s t : State) (d : Nat),
    (∀ o, o < s.msglen.toNat → s.buf.find o ≠ none) →
    exec i s = .next t → exec i { s with draws := d } = .next { t with draws := d }
end

