-- ==== Sys2Proof/Laws/BitUtil.lean ====
section
/-! SUPPORT. Packing and unpacking are inverse (41_bit_utilities.md R160), and what a rotation is on numbers. -/

namespace Sys2Proof.Machine

section
variable (a b c d : Byte)

theorem wordOf_toNat :
    (wordOf a b c d).toNat = a.toNat * 2 ^ 24 + b.toNat * 2 ^ 16 + c.toNat * 2 ^ 8 + d.toNat := by
  have h : (wordOf a b c d).toNat = ((a.toNat <<< 8 ||| b.toNat) <<< 8 ||| c.toNat) <<< 8 ||| d.toNat := by
    simp only [wordOf, BitVec.toNat_append]
  rw [h, ← Nat.shiftLeft_add_eq_or_of_lt d.isLt, ← Nat.shiftLeft_add_eq_or_of_lt c.isLt,
    ← Nat.shiftLeft_add_eq_or_of_lt b.isLt]
  simp only [Nat.shiftLeft_eq]
  omega

theorem byteOf_toNat (w : Word) (j : Nat) : (byteOf w j).toNat = w.toNat / 2 ^ (24 - 8 * j) % 256 := by
  simp only [byteOf, BitVec.extractLsb'_toNat, Nat.shiftRight_eq_div_pow]

@[simp] theorem byteOf_wordOf_0 : byteOf (wordOf a b c d) 0 = a := by
  apply BitVec.eq_of_toNat_eq
  rw [byteOf_toNat, wordOf_toNat]
  omega

@[simp] theorem byteOf_wordOf_1 : byteOf (wordOf a b c d) 1 = b := by
  apply BitVec.eq_of_toNat_eq
  rw [byteOf_toNat, wordOf_toNat]
  omega

@[simp] theorem byteOf_wordOf_2 : byteOf (wordOf a b c d) 2 = c := by
  apply BitVec.eq_of_toNat_eq
  rw [byteOf_toNat, wordOf_toNat]
  omega

@[simp] theorem byteOf_wordOf_3 : byteOf (wordOf a b c d) 3 = d := by
  apply BitVec.eq_of_toNat_eq
  rw [byteOf_toNat, wordOf_toNat]
  omega

end

@[simp] theorem wordOf_byteOf (w : Word) : wordOf (byteOf w 0) (byteOf w 1) (byteOf w 2) (byteOf w 3) = w := by
  apply BitVec.eq_of_toNat_eq
  rw [wordOf_toNat]
  simp only [byteOf_toNat]
  omega

/-- splitBlock after joinBlock, by byte number (R160). -/
@[simp] theorem blockOf_blockByte (b : Block) : blockOf (blockByte b) = b := by
  simp [blockOf, blockByte]

/-- joinBlock after splitBlock, by byte number (R160). -/
theorem blockByte_blockOf (get : Nat → Byte) {j : Nat} (hj : j < 8) : blockByte (blockOf get) j = get j := by
  match j, hj with
  | 0, _ => simp [blockOf, blockByte]
  | 1, _ => simp [blockOf, blockByte]
  | 2, _ => simp [blockOf, blockByte]
  | 3, _ => simp [blockOf, blockByte]
  | 4, _ => simp [blockOf, blockByte]
  | 5, _ => simp [blockOf, blockByte]
  | 6, _ => simp [blockOf, blockByte]
  | 7, _ => simp [blockOf, blockByte]

/-- A block is its eight bytes. -/
theorem block_ext {b c : Block} (h : ∀ j < 8, blockByte b j = blockByte c j) : b = c := by
  rw [← blockOf_blockByte b, ← blockOf_blockByte c]
  simp only [blockOf, h 0 (by omega), h 1 (by omega), h 2 (by omega), h 3 (by omega), h 4 (by omega),
    h 5 (by omega), h 6 (by omega), h 7 (by omega)]

theorem blockOf_congr {f g : Nat → Byte} (h : ∀ j < 8, f j = g j) : blockOf f = blockOf g :=
  block_ext fun j hj => by rw [blockByte_blockOf f hj, blockByte_blockOf g hj, h j hj]

@[simp] theorem joinBlock_length (b : Block) : (joinBlock b).length = 8 := by simp [joinBlock]

theorem joinBlock_getD (b : Block) {j : Nat} (hj : j < 8) : (joinBlock b).getD j 0 = blockByte b j := by
  simp [joinBlock, List.getD, hj]

@[simp] theorem splitBlock_joinBlock (b : Block) : splitBlock (joinBlock b) = b := by
  rw [splitBlock, blockOf_congr (g := blockByte b) fun j hj => joinBlock_getD b hj, blockOf_blockByte]

/-- rotl32 by a reduced amount is the shifts of R161. -/
theorem rotl32_of_lt (x : Word) {n : Nat} (hn : n < 32) :
    rotl32 x n = if n = 0 then x else (x <<< n) ||| (x >>> (32 - n)) := by
  have h : ((n : Int) % 32).toNat = n := by omega
  simp only [rotl32, h]

/-- rotl64 by a reduced amount is the shifts of R162. -/
theorem rotl64_of_lt (x : DWord) {n : Nat} (hn : n < 64) :
    rotl64 x n = if n = 0 then x else (x <<< n) ||| (x >>> (64 - n)) := by
  have h : ((n : Int) % 64).toNat = n := by omega
  simp only [rotl64, h]

/-- Only the amount mod 32 counts (R161). -/
theorem rotl32_emod (x : Word) (s : Int) : rotl32 x (s % 32) = rotl32 x s := by
  simp [rotl32]

@[simp] theorem rotl32_zero_word (s : Int) : rotl32 0 s = 0 := by simp [rotl32]

end Sys2Proof.Machine
end

