-- ==== Sys2Proof/Laws/Arith.lean ====
section
/-! SUPPORT. The model's bit-vector functions and the number functions of Obligations.lean agree. The round function is
taken one named step at a time: unfolding it as a whole is too much for simp. -/

namespace Sys2Proof.Machine

theorem rotl32_toNat (x : Word) (n : Nat) :
    (rotl32 x (n % 32 : Nat)).toNat = Arith.rotl 32 x.toNat (n % 32) := by
  rw [rotl32_of_lt x (Nat.mod_lt n (by omega)), Arith.rotl, Nat.mod_mod]
  split_ifs
  · rfl
  · simp [BitVec.toNat_shiftLeft, BitVec.toNat_ushiftRight, Nat.shiftLeft_eq, Nat.shiftRight_eq_div_pow]

theorem rotl64_toNat (x : DWord) {n : Nat} (h : n < 64) : (rotl64 x n).toNat = Arith.rotl 64 x.toNat n := by
  rw [rotl64_of_lt x h, Arith.rotl, Nat.mod_eq_of_lt h]
  split_ifs
  · rfl
  · simp [BitVec.toNat_shiftLeft, BitVec.toNat_ushiftRight, Nat.shiftLeft_eq, Nat.shiftRight_eq_div_pow]

theorem not_toNat (a : Word) : (~~~a).toNat = Arith.notN 32 a.toNat := by
  simp [Arith.notN, BitVec.toNat_not]

theorem and_15_toNat (k : Word) : (k &&& (0xF : Word)).toNat = k.toNat % 16 := by
  rw [BitVec.toNat_and, show (0xF : Word).toNat = 2 ^ 4 - 1 by decide, Nat.and_two_pow_sub_one_eq_mod]

theorem mul_phi_toNat (a : Word) : (a * phi).toNat = a.toNat * 0x9E3779B1 % 2 ^ 32 := BitVec.toNat_mul a phi

theorem roundF_toNat (r k : Word) (n : Nat) : (roundF r k n).toNat = Arith.roundF r.toNat k.toNat n := by
  unfold roundF Arith.roundF
  extract_lets a b c d e f g h i j a' b' c' d' e' f' g' h' i' j'
  have ha : a' = a.toNat := (BitVec.toNat_xor r k).symm
  clear_value a' a; subst ha
  have hb : b' = b.toNat := (mul_phi_toNat a).symm
  clear_value b' b; subst hb
  have hc : c' = c.toNat := (BitVec.toNat_and a b).symm
  clear_value c' c; subst hc
  have hd : d' = d.toNat := by simp only [d', d, not_toNat, BitVec.toNat_or]
  clear_value d' d; subst hd
  have he : e' = e.toNat := by simp only [e', e, BitVec.toNat_or]
  clear_value e' e; subst he
  have hf : f' = f.toNat := by simp only [f', f, not_toNat, BitVec.toNat_and]
  clear_value f' f; subst hf
  have hg : g' = g.toNat := by simp only [g', g, rotl32_toNat, BitVec.toNat_xor]
  clear_value g' g; subst hg
  have hh : h' = h.toNat := by simp only [h', h, rotl32_toNat, BitVec.toNat_xor]
  clear_value h' h; subst hh
  have hi : i' = i.toNat := by simp only [i', i, BitVec.toNat_xor, BitVec.toNat_add]
  clear_value i' i; subst hi
  have hj : j' = j.toNat := by simp only [j', j, rotl32_toNat, and_15_toNat]
  clear_value j' j; subst hj
  simp only [BitVec.toNat_xor, BitVec.toNat_shiftLeft, BitVec.toNat_ushiftRight, Nat.shiftLeft_eq,
    Nat.shiftRight_eq_div_pow]

theorem roundKey_toNat (K : DWord) {i : Nat} (hi : i < 4) : (roundKey K i).toNat = Arith.roundKey K.toNat i := by
  have hr := rotl64_toNat K (n := 8 * i) (by omega)
  have hp : (BitVec.ofNat 64 (phi.toNat * (i + 1))).toNat = 0x9E3779B1 * (i + 1) := by
    rw [BitVec.toNat_ofNat, show phi.toNat = 0x9E3779B1 from rfl]
    omega
  have he : (8 : Int) * (i : Int) = ((8 * i : Nat) : Int) := by push_cast; rfl
  simp only [roundKey, Arith.roundKey, mix, BitVec.toNat_setWidth, BitVec.toNat_xor, BitVec.toNat_add, hp,
    BitVec.toNat_shiftLeft, BitVec.toNat_ushiftRight, Nat.shiftLeft_eq, Nat.shiftRight_eq_div_pow, he, hr]

theorem masterKey_toNat (s : State) : s.masterKey.toNat = s.keyHi.toNat * 2 ^ 32 + s.keyLo.toNat := by
  rw [State.masterKey, BitVec.toNat_append, ← Nat.shiftLeft_add_eq_or_of_lt s.keyLo.isLt, Nat.shiftLeft_eq]

theorem encRound_toNat (rk : RoundKeys) (b : Block) (n : Nat) :
    ((encRound rk b n).1.toNat, (encRound rk b n).2.toNat) =
      Arith.encRound (rk.get (n - 1)).toNat n (b.1.toNat, b.2.toNat) := by
  simp [encRound, Arith.encRound, roundF_toNat]

theorem decRound_toNat (rk : RoundKeys) (b : Block) (n : Nat) :
    ((decRound rk b n).1.toNat, (decRound rk b n).2.toNat) =
      Arith.decRound (rk.get (n - 1)).toNat n (b.1.toNat, b.2.toNat) := by
  simp [decRound, Arith.decRound, roundF_toNat]

theorem blockByte_toNat (b : Block) {j : Nat} (hj : j < 8) :
    (blockByte b j).toNat = Arith.blockByte b.1.toNat b.2.toNat j := by
  have h1 := b.1.isLt
  have h2 := b.2.isLt
  rw [Arith.blockByte, blockByte]
  split_ifs with h
  · rw [byteOf_toNat]
    interval_cases j <;> norm_num <;> omega
  · rw [byteOf_toNat]
    interval_cases j <;> omega

end Sys2Proof.Machine
end

