-- ==== Sys2Proof/Laws/Memory.lean ====
section
/-! SUPPORT. What each operation over the message buffer does, said once: what a byte reads as afterwards, that the
canonical form is kept, and which offsets can be listed. -/

namespace Sys2Proof.Machine

/-! ### One byte -/

theorem Memory.find_write (m : Memory) (o j : Nat) (v : Byte) :
    (m.write o v).find j = if j = o then some v else m.find j := by
  induction m with
  | nil => simp [Memory.write, Memory.find, eq_comm]
  | cons c rest ih =>
    obtain ⟨p, b⟩ := c
    by_cases h1 : o < p
    · rw [Memory.write, if_pos h1, Memory.find]
      split_ifs <;> first | rfl | omega
    · by_cases h2 : o = p
      · rw [Memory.write, if_neg h1, if_pos h2, Memory.find, Memory.find]
        split_ifs <;> first | rfl | omega
      · rw [Memory.write, if_neg h1, if_neg h2, Memory.find, Memory.find, ih]
        split_ifs <;> first | rfl | omega

/-- A cell of the buffer after a write is the new byte or a cell of before. -/
theorem Memory.mem_write {m : Memory} {o : Nat} {v : Byte} {c : Host.Cell} (h : c ∈ m.write o v) :
    c = (o, v) ∨ c ∈ m := by
  induction m with
  | nil => exact .inl (by simpa [Memory.write] using h)
  | cons d rest ih =>
    obtain ⟨p, b⟩ := d
    simp only [Memory.write] at h
    split_ifs at h with h1 h2
    · rcases List.mem_cons.mp h with h | h
      · exact .inl h
      · exact .inr h
    · rcases List.mem_cons.mp h with h | h
      · exact .inl h
      · exact .inr (List.mem_cons_of_mem _ h)
    · rcases List.mem_cons.mp h with h | h
      · exact .inr (by simp [h])
      · exact (ih h).imp_right (List.mem_cons_of_mem _)

theorem Memory.wf_write {m : Memory} (h : m.wf) (o : Nat) (v : Byte) : (m.write o v).wf := by
  induction m with
  | nil => simp [Memory.write]
  | cons d rest ih =>
    obtain ⟨p, b⟩ := d
    obtain ⟨hlt, hrest⟩ := List.pairwise_cons.mp h
    simp only [Memory.write]
    split_ifs with h1 h2
    · refine List.pairwise_cons.mpr ⟨fun x hx => ?_, h⟩
      rcases List.mem_cons.mp hx with rfl | hx
      · exact h1
      · exact lt_trans h1 (hlt x hx)
    · subst h2
      exact List.pairwise_cons.mpr ⟨hlt, hrest⟩
    · refine List.pairwise_cons.mpr ⟨fun x hx => ?_, ih hrest⟩
      rcases Memory.mem_write hx with rfl | hx
      · exact (by omega : p < o)
      · exact hlt x hx

theorem Memory.read_write (m : Memory) (d o j : Nat) (v : Byte) :
    (m.write o v).read d j = if j = o then v else m.read d j := by
  rw [Memory.read, Memory.find_write]
  split_ifs <;> simp [Memory.read]

/-- The listed offsets are all below a bound. -/
abbrev Memory.below (m : Memory) (n : Nat) : Prop := ∀ c ∈ m, c.1 < n

theorem Memory.below_write {m : Memory} {n : Nat} (h : m.below n) {o : Nat} (ho : o < n) (v : Byte) :
    (m.write o v).below n := by
  intro c hc
  rcases Memory.mem_write hc with rfl | hc
  · exact ho
  · exact h c hc

/-- Two buffers in canonical form with the same written bytes are the same buffer. -/
theorem Memory.eq_of_find {m m' : Memory} (h : m.wf) (h' : m'.wf) (he : ∀ j, m.find j = m'.find j) : m = m' := by
  have above : ∀ (l : Memory) (p : Nat), (∀ x ∈ l, p < x.1) → ∀ k, k ≤ p → l.find k = none := by
    intro l p hl k hk
    induction l with
    | nil => rfl
    | cons d ds ihd =>
      have : p < d.1 := hl d (by simp)
      rw [Memory.find, if_neg (by omega)]
      exact ihd fun x hx => hl x (List.mem_cons_of_mem _ hx)
  induction m generalizing m' with
  | nil =>
    cases m' with
    | nil => rfl
    | cons d ds => simpa [Memory.find] using he d.1
  | cons c cs ih =>
    cases m' with
    | nil => simpa [Memory.find] using he c.1
    | cons d ds =>
      obtain ⟨p, b⟩ := c
      obtain ⟨q, e⟩ := d
      obtain ⟨hp, hcs⟩ := List.pairwise_cons.mp h
      obtain ⟨hq, hds⟩ := List.pairwise_cons.mp h'
      have hpq : p = q := by
        by_contra hne
        rcases Nat.lt_or_gt_of_ne hne with hlt | hlt
        · have := he p
          rw [Memory.find, if_pos rfl, Memory.find, if_neg (by omega), above ds q hq p (by omega)] at this
          cases this
        · have := he q
          rw [Memory.find, if_neg (by omega), above cs p hp q (by omega), Memory.find, if_pos rfl] at this
          cases this
      subst hpq
      have hb : b = e := by simpa [Memory.find] using he p
      subst hb
      refine congrArg _ (ih hcs hds fun j => ?_)
      by_cases hj : j = p
      · subst hj
        rw [above cs j hp j le_rfl, above ds j hq j le_rfl]
      · simpa [Memory.find, Ne.symm hj] using he j

/-! ### A run of bytes, a word, a block -/

theorem Memory.wf_fill {m : Memory} (h : m.wf) (o n : Nat) (v : Byte) : (m.fill o n v).wf := by
  induction n with
  | zero => exact h
  | succ n ih => exact Memory.wf_write ih _ _

theorem Memory.find_fill (m : Memory) (o n j : Nat) (v : Byte) :
    (m.fill o n v).find j = if o ≤ j ∧ j < o + n then some v else m.find j := by
  induction n with
  | zero => rw [Memory.fill, if_neg (by omega)]
  | succ n ih =>
    rw [Memory.fill, Memory.find_write, ih]
    split_ifs <;> first | rfl | omega

theorem Memory.read_fill (m : Memory) (d o n j : Nat) (v : Byte) :
    (m.fill o n v).read d j = if o ≤ j ∧ j < o + n then v else m.read d j := by
  rw [Memory.read, Memory.find_fill]
  split_ifs <;> simp [Memory.read]

theorem Memory.below_fill {m : Memory} {k : Nat} (h : m.below k) {o n : Nat} (hn : o + n ≤ k) (v : Byte) :
    (m.fill o n v).below k := by
  induction n with
  | zero => exact h
  | succ n ih => exact Memory.below_write (ih (by omega)) (by omega) _

theorem Memory.wf_writeWord {m : Memory} (h : m.wf) (o : Nat) (w : Word) : (m.writeWord o w).wf :=
  Memory.wf_write (Memory.wf_write (Memory.wf_write (Memory.wf_write h _ _) _ _) _ _) _ _

theorem Memory.find_writeWord (m : Memory) (o j : Nat) (w : Word) :
    (m.writeWord o w).find j = if o ≤ j ∧ j < o + 4 then some (byteOf w (j - o)) else m.find j := by
  rw [Memory.writeWord, Memory.find_write, Memory.find_write, Memory.find_write, Memory.find_write]
  by_cases hj : o ≤ j ∧ j < o + 4
  · obtain ⟨k, rfl⟩ := Nat.exists_eq_add_of_le hj.1
    have hk : k = 0 ∨ k = 1 ∨ k = 2 ∨ k = 3 := by omega
    rcases hk with rfl | rfl | rfl | rfl <;> simp
  · rw [if_neg hj, if_neg (by omega), if_neg (by omega), if_neg (by omega), if_neg (by omega)]

theorem Memory.read_writeWord (m : Memory) (d o j : Nat) (w : Word) :
    (m.writeWord o w).read d j = if o ≤ j ∧ j < o + 4 then byteOf w (j - o) else m.read d j := by
  rw [Memory.read, Memory.find_writeWord]
  split_ifs <;> simp [Memory.read]

theorem Memory.below_writeWord {m : Memory} {n : Nat} (h : m.below n) {o : Nat} (ho : o + 4 ≤ n) (w : Word) :
    (m.writeWord o w).below n :=
  Memory.below_write (Memory.below_write (Memory.below_write (Memory.below_write h (by omega) _) (by omega) _)
    (by omega) _) (by omega) _

/-- A word reads back as it was stored (20_memory.md R83, R84). -/
theorem Memory.readWord_writeWord (m : Memory) (d o : Nat) (w : Word) :
    (m.writeWord o w).readWord d o = w := by
  simp [Memory.readWord, Memory.read_writeWord]

theorem Memory.wf_writeBlock {m : Memory} (h : m.wf) (k : Nat) (b : Block) : (m.writeBlock k b).wf :=
  Memory.wf_writeWord (Memory.wf_writeWord h _ _) _ _

theorem Memory.find_writeBlock (m : Memory) (k j : Nat) (b : Block) :
    (m.writeBlock k b).find j = if 8 * k ≤ j ∧ j < 8 * k + 8 then some (blockByte b (j - 8 * k)) else m.find j := by
  rw [Memory.writeBlock, Memory.find_writeWord, Memory.find_writeWord]
  unfold blockByte
  split_ifs <;> first | rfl | omega

theorem Memory.read_writeBlock (m : Memory) (d k j : Nat) (b : Block) :
    (m.writeBlock k b).read d j = if 8 * k ≤ j ∧ j < 8 * k + 8 then blockByte b (j - 8 * k) else m.read d j := by
  rw [Memory.read, Memory.find_writeBlock]
  split_ifs <;> simp [Memory.read]

theorem Memory.below_writeBlock {m : Memory} {n : Nat} (h : m.below n) {k : Nat} (hk : 8 * k + 8 ≤ n) (b : Block) :
    (m.writeBlock k b).below n :=
  Memory.below_writeWord (Memory.below_writeWord h (by omega) _) (by omega) _

/-- A block read depends on its eight bytes alone. -/
theorem Memory.readBlock_congr {m m' : Memory} {d d' k : Nat}
    (h : ∀ j, 8 * k ≤ j → j < 8 * k + 8 → m.read d j = m'.read d' j) : m.readBlock d k = m'.readBlock d' k :=
  blockOf_congr fun j hj => h (8 * k + j) (by omega) (by omega)

/-! ### The block loop of ENCMSG and DECMSG -/

section
variable (d : Nat) (f : Block → Block)

theorem Memory.wf_mapBlocks {m : Memory} (h : m.wf) (n : Nat) : (m.mapBlocks d f n).wf := by
  induction n with
  | zero => exact h
  | succ n ih => exact Memory.wf_writeBlock ih _ _

theorem Memory.below_mapBlocks {m : Memory} {k : Nat} (h : m.below k) {n : Nat} (hn : 8 * n ≤ k) :
    (m.mapBlocks d f n).below k := by
  induction n with
  | zero => exact h
  | succ n ih => exact Memory.below_writeBlock (ih (by omega)) (by omega) _

/-- After the loop over n blocks, a byte below 8n is the byte of the transformed block of before, and every other
byte is as before: no block depends on another (45_feistel.md R244). -/
theorem Memory.find_mapBlocks (m : Memory) (n j : Nat) :
    (m.mapBlocks d f n).find j =
      if j < 8 * n then some (blockByte (f (m.readBlock d (j / 8))) (j % 8)) else m.find j := by
  induction n generalizing j with
  | zero => rw [Memory.mapBlocks, if_neg (by omega)]
  | succ n ih =>
    have hr : (m.mapBlocks d f n).readBlock d n = m.readBlock d n := by
      refine Memory.readBlock_congr fun i hi _ => ?_
      rw [Memory.read, ih, if_neg (by omega), Memory.read]
    rw [Memory.mapBlocks]
    simp only [hr]
    rw [Memory.find_writeBlock, ih]
    by_cases hj : 8 * n ≤ j ∧ j < 8 * n + 8
    · have hq : j / 8 = n := by omega
      have hm : j - 8 * n = j % 8 := by omega
      rw [if_pos hj, if_pos (by omega), hq, hm]
    · rw [if_neg hj]
      split_ifs <;> first | rfl | omega

theorem Memory.read_mapBlocks (m : Memory) (n j : Nat) :
    (m.mapBlocks d f n).read d j =
      if j < 8 * n then blockByte (f (m.readBlock d (j / 8))) (j % 8) else m.read d j := by
  rw [Memory.read, Memory.find_mapBlocks]
  split_ifs <;> simp [Memory.read]

theorem Memory.readBlock_mapBlocks (m : Memory) {n k : Nat} (hk : k < n) :
    (m.mapBlocks d f n).readBlock d k = f (m.readBlock d k) := by
  refine block_ext fun j hj => ?_
  rw [Memory.readBlock, blockByte_blockOf _ hj, Memory.read_mapBlocks, if_pos (by omega)]
  have hq : (8 * k + j) / 8 = k := by omega
  have hm : (8 * k + j) % 8 = j := by omega
  rw [hq, hm]

end

/-! ### Written bytes hold no free value -/

/-- A written byte reads the same under every draw. -/
theorem Memory.read_of_written {m : Memory} {o : Nat} (h : m.find o ≠ none) (d d' : Nat) :
    m.read d o = m.read d' o := by
  cases hf : m.find o with
  | none => exact absurd hf h
  | some v => simp [Memory.read, hf]

/-- The block loop over written bytes is the same under every draw. -/
theorem Memory.mapBlocks_of_written {m : Memory} (f : Block → Block) {n : Nat}
    (h : ∀ o, o < 8 * n → m.find o ≠ none) (d d' : Nat) : m.mapBlocks d f n = m.mapBlocks d' f n := by
  induction n with
  | zero => rfl
  | succ n ih =>
    simp only [Memory.mapBlocks]
    rw [ih fun o ho => h o (by omega)]
    congr 2
    refine Memory.readBlock_congr fun j h1 h2 => Memory.read_of_written ?_ d d'
    rw [Memory.find_mapBlocks, if_neg (by omega)]
    exact h j h2

end Sys2Proof.Machine
end

