-- ==== Sys2Proof/Laws/Padding.lean ====
section
/-! SUPPORT. What pad, the padding check and the padded block are, byte by byte (42_padding.md R180 to R183). -/

namespace Sys2Proof.Machine

theorem padLength_bounds (n : Nat) : 1 ≤ padLength n ∧ padLength n ≤ 8 := by
  unfold padLength
  omega

/-- The padded length P = 8·(n div 8) + 8 (46_message.md R261). -/
theorem add_padLength (n : Nat) : n + padLength n = 8 * (n / 8) + 8 := by
  unfold padLength
  omega

@[simp] theorem pad_length (m : List Byte) : (pad m).length = m.length + padLength m.length := by
  simp [pad]

theorem pad_getD (m : List Byte) (j : Nat) :
    (pad m).getD j 0 =
      if j < m.length then m.getD j 0
      else if j < m.length + padLength m.length then BitVec.ofNat 8 (padLength m.length) else 0 := by
  simp only [pad, List.getD_eq_getElem?_getD]
  split_ifs with h1 h2
  · rw [List.getElem?_append_left h1]
  · rw [List.getElem?_append_right (by omega), List.getElem?_replicate, if_pos (by omega)]
    rfl
  · rw [List.getElem?_append_right (by omega), List.getElem?_replicate, if_neg (by omega)]
    rfl

/-- The check of R181 answers p exactly where the last p bytes are p and p is 1..8. -/
theorem padCheck_eq_some {get : Nat → Byte} {n p : Nat} :
    padCheck get n = some p ↔
      n ≠ 0 ∧ (get (n - 1)).toNat = p ∧ 1 ≤ p ∧ p ≤ 8 ∧ p ≤ n ∧
        ∀ j, n - p ≤ j → j < n → get j = BitVec.ofNat 8 p := by
  simp only [padCheck]
  constructor
  · intro h
    split_ifs at h with h0 h1 h2 h3
    cases h
    refine ⟨h0, rfl, by omega, by omega, by omega, fun j hj hn => ?_⟩
    have := List.all_eq_true.mp h3 (j - (n - (get (n - 1)).toNat)) (List.mem_range.mpr (by omega))
    rwa [Nat.add_sub_cancel' hj, beq_iff_eq] at this
  · rintro ⟨h0, rfl, h1, h2, h3, h4⟩
    rw [if_neg h0, if_neg (by omega), if_neg (by omega), if_pos]
    refine List.all_eq_true.mpr fun i hi => ?_
    have := List.mem_range.mp hi
    simpa using h4 (n - (get (n - 1)).toNat + i) (by omega) (by omega)

/-- The check looks at the string's own bytes alone. -/
theorem padCheck_congr {f g : Nat → Byte} {n : Nat} (h : ∀ j < n, f j = g j) : padCheck f n = padCheck g n := by
  refine Option.ext fun p => ?_
  rw [padCheck_eq_some, padCheck_eq_some]
  constructor
  · rintro ⟨h0, h1, h2, h3, h4, h5⟩
    exact ⟨h0, by rw [← h _ (by omega), h1], h2, h3, h4, fun j hj hn => by rw [← h j hn, h5 j hj hn]⟩
  · rintro ⟨h0, h1, h2, h3, h4, h5⟩
    exact ⟨h0, by rw [h _ (by omega), h1], h2, h3, h4, fun j hj hn => by rw [h j hn, h5 j hj hn]⟩

theorem blockByte_padBlock (c : Nat) (b : Block) {j : Nat} (hj : j < 8) :
    blockByte (padBlock c b) j = if c ≤ j then BitVec.ofNat 8 (8 - c) else blockByte b j :=
  blockByte_blockOf _ hj

theorem unpad_eq_some {d m : List Byte} :
    unpad d = some m ↔ ∃ p, padCheck (fun j => d.getD j 0) d.length = some p ∧ m = d.take (d.length - p) := by
  simp [unpad, eq_comm]

theorem unpad_eq_none {d : List Byte} : unpad d = none ↔ padCheck (fun j => d.getD j 0) d.length = none := by
  simp [unpad]

/-- The check finds the pad bytes that padBlock wrote (42_padding.md R182, R183). -/
theorem padCheck_padBlock {c : Nat} (hc : c ≤ 7) (b : Block) :
    padCheck (blockByte (padBlock c b)) 8 = some (8 - c) := by
  refine padCheck_eq_some.mpr ⟨by omega, ?_, by omega, by omega, by omega, fun j h1 h2 => ?_⟩
  · rw [blockByte_padBlock _ _ (by omega), if_pos (by omega), BitVec.toNat_ofNat]
    omega
  · rw [blockByte_padBlock _ _ h2, if_pos (by omega)]

/-- Unpadding a padded message gives the message back (R184). -/
theorem unpad_pad (m : List Byte) : unpad (pad m) = some m := by
  have hb := padLength_bounds m.length
  refine unpad_eq_some.mpr ⟨padLength m.length, ?_, ?_⟩
  · rw [padCheck_eq_some, pad_length]
    refine ⟨by omega, ?_, hb.1, hb.2, by omega, fun j h1 h2 => ?_⟩
    · rw [pad_getD, if_neg (by omega), if_pos (by omega), BitVec.toNat_ofNat]
      omega
    · rw [pad_getD, if_neg (by omega), if_pos h2]
  · rw [pad_length]
    simp [pad]

end Sys2Proof.Machine
end

