-- ==== Sys2Proof/Laws/Message.lean ====
section
/-! SUPPORT. The byte-string functions of 46_message.md R260 byte by byte, and the buffer as a byte string. -/

namespace Sys2Proof.Machine

/-- Two byte strings of one length with the same bytes are equal. -/
theorem bytes_ext {a b : List Byte} (hl : a.length = b.length) (h : ∀ j < a.length, a.getD j 0 = b.getD j 0) :
    a = b := by
  refine List.ext_getElem hl fun j h1 h2 => ?_
  have := h j h1
  simpa [List.getD, h1, h2] using this

theorem getD_flatMap_blocks (g : Nat → List Byte) (hg : ∀ k, (g k).length = 8) (n j : Nat) (hj : j < 8 * n) :
    ((List.range n).flatMap g).getD j 0 = (g (j / 8)).getD (j % 8) 0 := by
  have hlen : ∀ n, ((List.range n).flatMap g).length = 8 * n := by
    intro n
    induction n with
    | zero => rfl
    | succ n ih => simp [List.range_succ, ih, hg]; omega
  induction n with
  | zero => omega
  | succ n ih =>
    rw [List.range_succ, List.flatMap_append, List.flatMap_singleton, List.getD_eq_getElem?_getD]
    by_cases hn : j < 8 * n
    · rw [List.getElem?_append_left (by rw [hlen]; exact hn), ← List.getD_eq_getElem?_getD]
      exact ih hn
    · have hq : j / 8 = n := by omega
      have hm : j - 8 * n = j % 8 := by omega
      rw [List.getElem?_append_right (by rw [hlen]; omega), hlen, hq, hm, ← List.getD_eq_getElem?_getD]

@[simp] theorem mapChunks_length (f : Block → Block) (d : List Byte) :
    (mapChunks f d).length = 8 * (d.length / 8) := by
  simp [mapChunks]
  omega

theorem getD_chunk (d : List Byte) (k i : Nat) (hi : i < 8) :
    ((d.drop (8 * k)).take 8).getD i 0 = d.getD (8 * k + i) 0 := by
  simp [List.getD_eq_getElem?_getD, hi]

/-- Byte j of the transformed string is a byte of the transformed chunk it lies in. -/
theorem mapChunks_getD (f : Block → Block) (d : List Byte) {j : Nat} (hj : j < 8 * (d.length / 8)) :
    (mapChunks f d).getD j 0 = blockByte (f (blockOf fun i => d.getD (8 * (j / 8) + i) 0)) (j % 8) := by
  rw [mapChunks, getD_flatMap_blocks _ (fun _ => joinBlock_length _) _ _ hj, joinBlock_getD _ (Nat.mod_lt _ (by omega)),
    splitBlock, blockOf_congr fun i hi => getD_chunk d _ i hi]

@[simp] theorem State.message_length (s : State) (n : Nat) : (s.message n).length = n := by
  simp [State.message]

theorem State.message_getD (s : State) {n j : Nat} (hj : j < n) : (s.message n).getD j 0 = s.bufByte j := by
  simp [State.message, List.getD, hj]

/-- BUF[0..n-1] is the byte string d where they agree byte by byte. -/
theorem State.message_eq (s : State) {n : Nat} {d : List Byte} (hl : d.length = n)
    (h : ∀ j, j < n → d.getD j 0 = s.bufByte j) : s.message n = d := by
  refine bytes_ext (by simp [hl]) fun j hj => ?_
  rw [State.message_length] at hj
  rw [State.message_getD s hj, h j hj]

end Sys2Proof.Machine
end

