-- ==== Sys2Proof/Laws/State.lean ====
section
/-! SUPPORT. One lemma per field per named update of State, so that no proof unfolds a record update. -/

namespace Sys2Proof.Machine

section
variable (s : State)

/-! ### State.setBlock -/

@[simp] theorem State.setBlock_ieDone (b : Block) : (s.setBlock b).ieDone = s.ieDone := rfl
@[simp] theorem State.setBlock_ieErr (b : Block) : (s.setBlock b).ieErr = s.ieErr := rfl
@[simp] theorem State.setBlock_ieOvr (b : Block) : (s.setBlock b).ieOvr = s.ieOvr := rfl
@[simp] theorem State.setBlock_busy (b : Block) : (s.setBlock b).busy = s.busy := rfl
@[simp] theorem State.setBlock_done (b : Block) : (s.setBlock b).done = s.done := rfl
@[simp] theorem State.setBlock_err (b : Block) : (s.setBlock b).err = s.err := rfl
@[simp] theorem State.setBlock_ovr (b : Block) : (s.setBlock b).ovr = s.ovr := rfl
@[simp] theorem State.setBlock_ecode (b : Block) : (s.setBlock b).ecode = s.ecode := rfl
@[simp] theorem State.setBlock_cmd (b : Block) : (s.setBlock b).cmd = s.cmd := rfl
@[simp] theorem State.setBlock_pend (b : Block) : (s.setBlock b).pend = s.pend := rfl
@[simp] theorem State.setBlock_errcmd (b : Block) : (s.setBlock b).errcmd = s.errcmd := rfl
@[simp] theorem State.setBlock_klen (b : Block) : (s.setBlock b).klen = s.klen := rfl
@[simp] theorem State.setBlock_msglen (b : Block) : (s.setBlock b).msglen = s.msglen := rfl
@[simp] theorem State.setBlock_keyHi (b : Block) : (s.setBlock b).keyHi = s.keyHi := rfl
@[simp] theorem State.setBlock_keyLo (b : Block) : (s.setBlock b).keyLo = s.keyLo := rfl
@[simp] theorem State.setBlock_dataL (b : Block) : (s.setBlock b).dataL = b.1 := rfl
@[simp] theorem State.setBlock_dataR (b : Block) : (s.setBlock b).dataR = b.2 := rfl
@[simp] theorem State.setBlock_rk (b : Block) : (s.setBlock b).rk = s.rk := rfl
@[simp] theorem State.setBlock_fin (b : Block) : (s.setBlock b).fin = s.fin := rfl
@[simp] theorem State.setBlock_fkey (b : Block) : (s.setBlock b).fkey = s.fkey := rfl
@[simp] theorem State.setBlock_fout (b : Block) : (s.setBlock b).fout = s.fout := rfl
@[simp] theorem State.setBlock_plen (b : Block) : (s.setBlock b).plen = s.plen := rfl
@[simp] theorem State.setBlock_vcnt (b : Block) : (s.setBlock b).vcnt = s.vcnt := rfl
@[simp] theorem State.setBlock_buf (b : Block) : (s.setBlock b).buf = s.buf := rfl
@[simp] theorem State.setBlock_cfg (b : Block) : (s.setBlock b).cfg = s.cfg := rfl
@[simp] theorem State.setBlock_rst (b : Block) : (s.setBlock b).rst = s.rst := rfl
@[simp] theorem State.setBlock_schedule (b : Block) : (s.setBlock b).schedule = s.schedule := rfl
@[simp] theorem State.setBlock_draws (b : Block) : (s.setBlock b).draws = s.draws := rfl
@[simp] theorem State.setBlock_port (b : Block) : (s.setBlock b).port = s.port := rfl
@[simp] theorem State.setBlock_bufByte (b : Block) (o : Nat) : (s.setBlock b).bufByte o = s.bufByte o := rfl

/-! ### State.setRoundKeys -/

@[simp] theorem State.setRoundKeys_ieDone (k : RoundKeys) : (s.setRoundKeys k).ieDone = s.ieDone := rfl
@[simp] theorem State.setRoundKeys_ieErr (k : RoundKeys) : (s.setRoundKeys k).ieErr = s.ieErr := rfl
@[simp] theorem State.setRoundKeys_ieOvr (k : RoundKeys) : (s.setRoundKeys k).ieOvr = s.ieOvr := rfl
@[simp] theorem State.setRoundKeys_busy (k : RoundKeys) : (s.setRoundKeys k).busy = s.busy := rfl
@[simp] theorem State.setRoundKeys_done (k : RoundKeys) : (s.setRoundKeys k).done = s.done := rfl
@[simp] theorem State.setRoundKeys_err (k : RoundKeys) : (s.setRoundKeys k).err = s.err := rfl
@[simp] theorem State.setRoundKeys_ovr (k : RoundKeys) : (s.setRoundKeys k).ovr = s.ovr := rfl
@[simp] theorem State.setRoundKeys_ecode (k : RoundKeys) : (s.setRoundKeys k).ecode = s.ecode := rfl
@[simp] theorem State.setRoundKeys_cmd (k : RoundKeys) : (s.setRoundKeys k).cmd = s.cmd := rfl
@[simp] theorem State.setRoundKeys_pend (k : RoundKeys) : (s.setRoundKeys k).pend = s.pend := rfl
@[simp] theorem State.setRoundKeys_errcmd (k : RoundKeys) : (s.setRoundKeys k).errcmd = s.errcmd := rfl
@[simp] theorem State.setRoundKeys_klen (k : RoundKeys) : (s.setRoundKeys k).klen = s.klen := rfl
@[simp] theorem State.setRoundKeys_msglen (k : RoundKeys) : (s.setRoundKeys k).msglen = s.msglen := rfl
@[simp] theorem State.setRoundKeys_keyHi (k : RoundKeys) : (s.setRoundKeys k).keyHi = s.keyHi := rfl
@[simp] theorem State.setRoundKeys_keyLo (k : RoundKeys) : (s.setRoundKeys k).keyLo = s.keyLo := rfl
@[simp] theorem State.setRoundKeys_dataL (k : RoundKeys) : (s.setRoundKeys k).dataL = s.dataL := rfl
@[simp] theorem State.setRoundKeys_dataR (k : RoundKeys) : (s.setRoundKeys k).dataR = s.dataR := rfl
@[simp] theorem State.setRoundKeys_rk (k : RoundKeys) : (s.setRoundKeys k).rk = k := rfl
@[simp] theorem State.setRoundKeys_fin (k : RoundKeys) : (s.setRoundKeys k).fin = s.fin := rfl
@[simp] theorem State.setRoundKeys_fkey (k : RoundKeys) : (s.setRoundKeys k).fkey = s.fkey := rfl
@[simp] theorem State.setRoundKeys_fout (k : RoundKeys) : (s.setRoundKeys k).fout = s.fout := rfl
@[simp] theorem State.setRoundKeys_plen (k : RoundKeys) : (s.setRoundKeys k).plen = s.plen := rfl
@[simp] theorem State.setRoundKeys_vcnt (k : RoundKeys) : (s.setRoundKeys k).vcnt = s.vcnt := rfl
@[simp] theorem State.setRoundKeys_buf (k : RoundKeys) : (s.setRoundKeys k).buf = s.buf := rfl
@[simp] theorem State.setRoundKeys_cfg (k : RoundKeys) : (s.setRoundKeys k).cfg = s.cfg := rfl
@[simp] theorem State.setRoundKeys_rst (k : RoundKeys) : (s.setRoundKeys k).rst = s.rst := rfl
@[simp] theorem State.setRoundKeys_schedule (k : RoundKeys) : (s.setRoundKeys k).schedule = s.schedule := rfl
@[simp] theorem State.setRoundKeys_draws (k : RoundKeys) : (s.setRoundKeys k).draws = s.draws := rfl
@[simp] theorem State.setRoundKeys_port (k : RoundKeys) : (s.setRoundKeys k).port = s.port := rfl
@[simp] theorem State.setRoundKeys_bufByte (k : RoundKeys) (o : Nat) : (s.setRoundKeys k).bufByte o = s.bufByte o := rfl

/-! ### State.setFout -/

@[simp] theorem State.setFout_ieDone (v : Word) : (s.setFout v).ieDone = s.ieDone := rfl
@[simp] theorem State.setFout_ieErr (v : Word) : (s.setFout v).ieErr = s.ieErr := rfl
@[simp] theorem State.setFout_ieOvr (v : Word) : (s.setFout v).ieOvr = s.ieOvr := rfl
@[simp] theorem State.setFout_busy (v : Word) : (s.setFout v).busy = s.busy := rfl
@[simp] theorem State.setFout_done (v : Word) : (s.setFout v).done = s.done := rfl
@[simp] theorem State.setFout_err (v : Word) : (s.setFout v).err = s.err := rfl
@[simp] theorem State.setFout_ovr (v : Word) : (s.setFout v).ovr = s.ovr := rfl
@[simp] theorem State.setFout_ecode (v : Word) : (s.setFout v).ecode = s.ecode := rfl
@[simp] theorem State.setFout_cmd (v : Word) : (s.setFout v).cmd = s.cmd := rfl
@[simp] theorem State.setFout_pend (v : Word) : (s.setFout v).pend = s.pend := rfl
@[simp] theorem State.setFout_errcmd (v : Word) : (s.setFout v).errcmd = s.errcmd := rfl
@[simp] theorem State.setFout_klen (v : Word) : (s.setFout v).klen = s.klen := rfl
@[simp] theorem State.setFout_msglen (v : Word) : (s.setFout v).msglen = s.msglen := rfl
@[simp] theorem State.setFout_keyHi (v : Word) : (s.setFout v).keyHi = s.keyHi := rfl
@[simp] theorem State.setFout_keyLo (v : Word) : (s.setFout v).keyLo = s.keyLo := rfl
@[simp] theorem State.setFout_dataL (v : Word) : (s.setFout v).dataL = s.dataL := rfl
@[simp] theorem State.setFout_dataR (v : Word) : (s.setFout v).dataR = s.dataR := rfl
@[simp] theorem State.setFout_rk (v : Word) : (s.setFout v).rk = s.rk := rfl
@[simp] theorem State.setFout_fin (v : Word) : (s.setFout v).fin = s.fin := rfl
@[simp] theorem State.setFout_fkey (v : Word) : (s.setFout v).fkey = s.fkey := rfl
@[simp] theorem State.setFout_fout (v : Word) : (s.setFout v).fout = v := rfl
@[simp] theorem State.setFout_plen (v : Word) : (s.setFout v).plen = s.plen := rfl
@[simp] theorem State.setFout_vcnt (v : Word) : (s.setFout v).vcnt = s.vcnt := rfl
@[simp] theorem State.setFout_buf (v : Word) : (s.setFout v).buf = s.buf := rfl
@[simp] theorem State.setFout_cfg (v : Word) : (s.setFout v).cfg = s.cfg := rfl
@[simp] theorem State.setFout_rst (v : Word) : (s.setFout v).rst = s.rst := rfl
@[simp] theorem State.setFout_schedule (v : Word) : (s.setFout v).schedule = s.schedule := rfl
@[simp] theorem State.setFout_draws (v : Word) : (s.setFout v).draws = s.draws := rfl
@[simp] theorem State.setFout_port (v : Word) : (s.setFout v).port = s.port := rfl
@[simp] theorem State.setFout_bufByte (v : Word) (o : Nat) : (s.setFout v).bufByte o = s.bufByte o := rfl

/-! ### State.setPadres -/

@[simp] theorem State.setPadres_ieDone (p : Nat) : (s.setPadres p).ieDone = s.ieDone := rfl
@[simp] theorem State.setPadres_ieErr (p : Nat) : (s.setPadres p).ieErr = s.ieErr := rfl
@[simp] theorem State.setPadres_ieOvr (p : Nat) : (s.setPadres p).ieOvr = s.ieOvr := rfl
@[simp] theorem State.setPadres_busy (p : Nat) : (s.setPadres p).busy = s.busy := rfl
@[simp] theorem State.setPadres_done (p : Nat) : (s.setPadres p).done = s.done := rfl
@[simp] theorem State.setPadres_err (p : Nat) : (s.setPadres p).err = s.err := rfl
@[simp] theorem State.setPadres_ovr (p : Nat) : (s.setPadres p).ovr = s.ovr := rfl
@[simp] theorem State.setPadres_ecode (p : Nat) : (s.setPadres p).ecode = s.ecode := rfl
@[simp] theorem State.setPadres_cmd (p : Nat) : (s.setPadres p).cmd = s.cmd := rfl
@[simp] theorem State.setPadres_pend (p : Nat) : (s.setPadres p).pend = s.pend := rfl
@[simp] theorem State.setPadres_errcmd (p : Nat) : (s.setPadres p).errcmd = s.errcmd := rfl
@[simp] theorem State.setPadres_klen (p : Nat) : (s.setPadres p).klen = s.klen := rfl
@[simp] theorem State.setPadres_msglen (p : Nat) : (s.setPadres p).msglen = s.msglen := rfl
@[simp] theorem State.setPadres_keyHi (p : Nat) : (s.setPadres p).keyHi = s.keyHi := rfl
@[simp] theorem State.setPadres_keyLo (p : Nat) : (s.setPadres p).keyLo = s.keyLo := rfl
@[simp] theorem State.setPadres_dataL (p : Nat) : (s.setPadres p).dataL = s.dataL := rfl
@[simp] theorem State.setPadres_dataR (p : Nat) : (s.setPadres p).dataR = s.dataR := rfl
@[simp] theorem State.setPadres_rk (p : Nat) : (s.setPadres p).rk = s.rk := rfl
@[simp] theorem State.setPadres_fin (p : Nat) : (s.setPadres p).fin = s.fin := rfl
@[simp] theorem State.setPadres_fkey (p : Nat) : (s.setPadres p).fkey = s.fkey := rfl
@[simp] theorem State.setPadres_fout (p : Nat) : (s.setPadres p).fout = s.fout := rfl
@[simp] theorem State.setPadres_plen (p : Nat) : (s.setPadres p).plen = BitVec.ofNat 4 p := rfl
@[simp] theorem State.setPadres_vcnt (p : Nat) : (s.setPadres p).vcnt = BitVec.ofNat 4 (8 - p) := rfl
@[simp] theorem State.setPadres_buf (p : Nat) : (s.setPadres p).buf = s.buf := rfl
@[simp] theorem State.setPadres_cfg (p : Nat) : (s.setPadres p).cfg = s.cfg := rfl
@[simp] theorem State.setPadres_rst (p : Nat) : (s.setPadres p).rst = s.rst := rfl
@[simp] theorem State.setPadres_schedule (p : Nat) : (s.setPadres p).schedule = s.schedule := rfl
@[simp] theorem State.setPadres_draws (p : Nat) : (s.setPadres p).draws = s.draws := rfl
@[simp] theorem State.setPadres_port (p : Nat) : (s.setPadres p).port = s.port := rfl
@[simp] theorem State.setPadres_bufByte (p : Nat) (o : Nat) : (s.setPadres p).bufByte o = s.bufByte o := rfl

/-! ### State.clearPadres -/

@[simp] theorem State.clearPadres_ieDone : s.clearPadres.ieDone = s.ieDone := rfl
@[simp] theorem State.clearPadres_ieErr : s.clearPadres.ieErr = s.ieErr := rfl
@[simp] theorem State.clearPadres_ieOvr : s.clearPadres.ieOvr = s.ieOvr := rfl
@[simp] theorem State.clearPadres_busy : s.clearPadres.busy = s.busy := rfl
@[simp] theorem State.clearPadres_done : s.clearPadres.done = s.done := rfl
@[simp] theorem State.clearPadres_err : s.clearPadres.err = s.err := rfl
@[simp] theorem State.clearPadres_ovr : s.clearPadres.ovr = s.ovr := rfl
@[simp] theorem State.clearPadres_ecode : s.clearPadres.ecode = s.ecode := rfl
@[simp] theorem State.clearPadres_cmd : s.clearPadres.cmd = s.cmd := rfl
@[simp] theorem State.clearPadres_pend : s.clearPadres.pend = s.pend := rfl
@[simp] theorem State.clearPadres_errcmd : s.clearPadres.errcmd = s.errcmd := rfl
@[simp] theorem State.clearPadres_klen : s.clearPadres.klen = s.klen := rfl
@[simp] theorem State.clearPadres_msglen : s.clearPadres.msglen = s.msglen := rfl
@[simp] theorem State.clearPadres_keyHi : s.clearPadres.keyHi = s.keyHi := rfl
@[simp] theorem State.clearPadres_keyLo : s.clearPadres.keyLo = s.keyLo := rfl
@[simp] theorem State.clearPadres_dataL : s.clearPadres.dataL = s.dataL := rfl
@[simp] theorem State.clearPadres_dataR : s.clearPadres.dataR = s.dataR := rfl
@[simp] theorem State.clearPadres_rk : s.clearPadres.rk = s.rk := rfl
@[simp] theorem State.clearPadres_fin : s.clearPadres.fin = s.fin := rfl
@[simp] theorem State.clearPadres_fkey : s.clearPadres.fkey = s.fkey := rfl
@[simp] theorem State.clearPadres_fout : s.clearPadres.fout = s.fout := rfl
@[simp] theorem State.clearPadres_plen : s.clearPadres.plen = 0 := rfl
@[simp] theorem State.clearPadres_vcnt : s.clearPadres.vcnt = 0 := rfl
@[simp] theorem State.clearPadres_buf : s.clearPadres.buf = s.buf := rfl
@[simp] theorem State.clearPadres_cfg : s.clearPadres.cfg = s.cfg := rfl
@[simp] theorem State.clearPadres_rst : s.clearPadres.rst = s.rst := rfl
@[simp] theorem State.clearPadres_schedule : s.clearPadres.schedule = s.schedule := rfl
@[simp] theorem State.clearPadres_draws : s.clearPadres.draws = s.draws := rfl
@[simp] theorem State.clearPadres_port : s.clearPadres.port = s.port := rfl
@[simp] theorem State.clearPadres_bufByte (o : Nat) : s.clearPadres.bufByte o = s.bufByte o := rfl

/-! ### State.setMsglen -/

@[simp] theorem State.setMsglen_ieDone (n : Nat) : (s.setMsglen n).ieDone = s.ieDone := rfl
@[simp] theorem State.setMsglen_ieErr (n : Nat) : (s.setMsglen n).ieErr = s.ieErr := rfl
@[simp] theorem State.setMsglen_ieOvr (n : Nat) : (s.setMsglen n).ieOvr = s.ieOvr := rfl
@[simp] theorem State.setMsglen_busy (n : Nat) : (s.setMsglen n).busy = s.busy := rfl
@[simp] theorem State.setMsglen_done (n : Nat) : (s.setMsglen n).done = s.done := rfl
@[simp] theorem State.setMsglen_err (n : Nat) : (s.setMsglen n).err = s.err := rfl
@[simp] theorem State.setMsglen_ovr (n : Nat) : (s.setMsglen n).ovr = s.ovr := rfl
@[simp] theorem State.setMsglen_ecode (n : Nat) : (s.setMsglen n).ecode = s.ecode := rfl
@[simp] theorem State.setMsglen_cmd (n : Nat) : (s.setMsglen n).cmd = s.cmd := rfl
@[simp] theorem State.setMsglen_pend (n : Nat) : (s.setMsglen n).pend = s.pend := rfl
@[simp] theorem State.setMsglen_errcmd (n : Nat) : (s.setMsglen n).errcmd = s.errcmd := rfl
@[simp] theorem State.setMsglen_klen (n : Nat) : (s.setMsglen n).klen = s.klen := rfl
@[simp] theorem State.setMsglen_msglen (n : Nat) : (s.setMsglen n).msglen = BitVec.ofNat 32 n := rfl
@[simp] theorem State.setMsglen_keyHi (n : Nat) : (s.setMsglen n).keyHi = s.keyHi := rfl
@[simp] theorem State.setMsglen_keyLo (n : Nat) : (s.setMsglen n).keyLo = s.keyLo := rfl
@[simp] theorem State.setMsglen_dataL (n : Nat) : (s.setMsglen n).dataL = s.dataL := rfl
@[simp] theorem State.setMsglen_dataR (n : Nat) : (s.setMsglen n).dataR = s.dataR := rfl
@[simp] theorem State.setMsglen_rk (n : Nat) : (s.setMsglen n).rk = s.rk := rfl
@[simp] theorem State.setMsglen_fin (n : Nat) : (s.setMsglen n).fin = s.fin := rfl
@[simp] theorem State.setMsglen_fkey (n : Nat) : (s.setMsglen n).fkey = s.fkey := rfl
@[simp] theorem State.setMsglen_fout (n : Nat) : (s.setMsglen n).fout = s.fout := rfl
@[simp] theorem State.setMsglen_plen (n : Nat) : (s.setMsglen n).plen = s.plen := rfl
@[simp] theorem State.setMsglen_vcnt (n : Nat) : (s.setMsglen n).vcnt = s.vcnt := rfl
@[simp] theorem State.setMsglen_buf (n : Nat) : (s.setMsglen n).buf = s.buf := rfl
@[simp] theorem State.setMsglen_cfg (n : Nat) : (s.setMsglen n).cfg = s.cfg := rfl
@[simp] theorem State.setMsglen_rst (n : Nat) : (s.setMsglen n).rst = s.rst := rfl
@[simp] theorem State.setMsglen_schedule (n : Nat) : (s.setMsglen n).schedule = s.schedule := rfl
@[simp] theorem State.setMsglen_draws (n : Nat) : (s.setMsglen n).draws = s.draws := rfl
@[simp] theorem State.setMsglen_port (n : Nat) : (s.setMsglen n).port = s.port := rfl
@[simp] theorem State.setMsglen_bufByte (n : Nat) (o : Nat) : (s.setMsglen n).bufByte o = s.bufByte o := rfl

/-! ### State.setBuf -/

@[simp] theorem State.setBuf_ieDone (m : Memory) : (s.setBuf m).ieDone = s.ieDone := rfl
@[simp] theorem State.setBuf_ieErr (m : Memory) : (s.setBuf m).ieErr = s.ieErr := rfl
@[simp] theorem State.setBuf_ieOvr (m : Memory) : (s.setBuf m).ieOvr = s.ieOvr := rfl
@[simp] theorem State.setBuf_busy (m : Memory) : (s.setBuf m).busy = s.busy := rfl
@[simp] theorem State.setBuf_done (m : Memory) : (s.setBuf m).done = s.done := rfl
@[simp] theorem State.setBuf_err (m : Memory) : (s.setBuf m).err = s.err := rfl
@[simp] theorem State.setBuf_ovr (m : Memory) : (s.setBuf m).ovr = s.ovr := rfl
@[simp] theorem State.setBuf_ecode (m : Memory) : (s.setBuf m).ecode = s.ecode := rfl
@[simp] theorem State.setBuf_cmd (m : Memory) : (s.setBuf m).cmd = s.cmd := rfl
@[simp] theorem State.setBuf_pend (m : Memory) : (s.setBuf m).pend = s.pend := rfl
@[simp] theorem State.setBuf_errcmd (m : Memory) : (s.setBuf m).errcmd = s.errcmd := rfl
@[simp] theorem State.setBuf_klen (m : Memory) : (s.setBuf m).klen = s.klen := rfl
@[simp] theorem State.setBuf_msglen (m : Memory) : (s.setBuf m).msglen = s.msglen := rfl
@[simp] theorem State.setBuf_keyHi (m : Memory) : (s.setBuf m).keyHi = s.keyHi := rfl
@[simp] theorem State.setBuf_keyLo (m : Memory) : (s.setBuf m).keyLo = s.keyLo := rfl
@[simp] theorem State.setBuf_dataL (m : Memory) : (s.setBuf m).dataL = s.dataL := rfl
@[simp] theorem State.setBuf_dataR (m : Memory) : (s.setBuf m).dataR = s.dataR := rfl
@[simp] theorem State.setBuf_rk (m : Memory) : (s.setBuf m).rk = s.rk := rfl
@[simp] theorem State.setBuf_fin (m : Memory) : (s.setBuf m).fin = s.fin := rfl
@[simp] theorem State.setBuf_fkey (m : Memory) : (s.setBuf m).fkey = s.fkey := rfl
@[simp] theorem State.setBuf_fout (m : Memory) : (s.setBuf m).fout = s.fout := rfl
@[simp] theorem State.setBuf_plen (m : Memory) : (s.setBuf m).plen = s.plen := rfl
@[simp] theorem State.setBuf_vcnt (m : Memory) : (s.setBuf m).vcnt = s.vcnt := rfl
@[simp] theorem State.setBuf_buf (m : Memory) : (s.setBuf m).buf = m := rfl
@[simp] theorem State.setBuf_cfg (m : Memory) : (s.setBuf m).cfg = s.cfg := rfl
@[simp] theorem State.setBuf_rst (m : Memory) : (s.setBuf m).rst = s.rst := rfl
@[simp] theorem State.setBuf_schedule (m : Memory) : (s.setBuf m).schedule = s.schedule := rfl
@[simp] theorem State.setBuf_draws (m : Memory) : (s.setBuf m).draws = s.draws := rfl
@[simp] theorem State.setBuf_port (m : Memory) : (s.setBuf m).port = s.port := rfl
@[simp] theorem State.setBuf_bufByte (m : Memory) (o : Nat) : (s.setBuf m).bufByte o = m.read s.draws o := rfl

/-! ### State.accept -/

@[simp] theorem State.accept_ieDone (w : Word) : (s.accept w).ieDone = s.ieDone := rfl
@[simp] theorem State.accept_ieErr (w : Word) : (s.accept w).ieErr = s.ieErr := rfl
@[simp] theorem State.accept_ieOvr (w : Word) : (s.accept w).ieOvr = s.ieOvr := rfl
@[simp] theorem State.accept_busy (w : Word) : (s.accept w).busy = true := rfl
@[simp] theorem State.accept_done (w : Word) : (s.accept w).done = false := rfl
@[simp] theorem State.accept_err (w : Word) : (s.accept w).err = s.err := rfl
@[simp] theorem State.accept_ovr (w : Word) : (s.accept w).ovr = s.ovr := rfl
@[simp] theorem State.accept_ecode (w : Word) : (s.accept w).ecode = s.ecode := rfl
@[simp] theorem State.accept_cmd (w : Word) : (s.accept w).cmd = w := rfl
@[simp] theorem State.accept_pend (w : Word) : (s.accept w).pend = some w := rfl
@[simp] theorem State.accept_errcmd (w : Word) : (s.accept w).errcmd = s.errcmd := rfl
@[simp] theorem State.accept_klen (w : Word) : (s.accept w).klen = s.klen := rfl
@[simp] theorem State.accept_msglen (w : Word) : (s.accept w).msglen = s.msglen := rfl
@[simp] theorem State.accept_keyHi (w : Word) : (s.accept w).keyHi = s.keyHi := rfl
@[simp] theorem State.accept_keyLo (w : Word) : (s.accept w).keyLo = s.keyLo := rfl
@[simp] theorem State.accept_dataL (w : Word) : (s.accept w).dataL = s.dataL := rfl
@[simp] theorem State.accept_dataR (w : Word) : (s.accept w).dataR = s.dataR := rfl
@[simp] theorem State.accept_rk (w : Word) : (s.accept w).rk = s.rk := rfl
@[simp] theorem State.accept_fin (w : Word) : (s.accept w).fin = s.fin := rfl
@[simp] theorem State.accept_fkey (w : Word) : (s.accept w).fkey = s.fkey := rfl
@[simp] theorem State.accept_fout (w : Word) : (s.accept w).fout = s.fout := rfl
@[simp] theorem State.accept_plen (w : Word) : (s.accept w).plen = s.plen := rfl
@[simp] theorem State.accept_vcnt (w : Word) : (s.accept w).vcnt = s.vcnt := rfl
@[simp] theorem State.accept_buf (w : Word) : (s.accept w).buf = s.buf := rfl
@[simp] theorem State.accept_cfg (w : Word) : (s.accept w).cfg = s.cfg := rfl
@[simp] theorem State.accept_rst (w : Word) : (s.accept w).rst = s.rst := rfl
@[simp] theorem State.accept_schedule (w : Word) : (s.accept w).schedule = s.schedule := rfl
@[simp] theorem State.accept_draws (w : Word) : (s.accept w).draws = s.draws := rfl
@[simp] theorem State.accept_port (w : Word) : (s.accept w).port = s.port := rfl
@[simp] theorem State.accept_bufByte (w : Word) (o : Nat) : (s.accept w).bufByte o = s.bufByte o := rfl

/-! ### State.finish -/

@[simp] theorem State.finish_ieDone : s.finish.ieDone = s.ieDone := rfl
@[simp] theorem State.finish_ieErr : s.finish.ieErr = s.ieErr := rfl
@[simp] theorem State.finish_ieOvr : s.finish.ieOvr = s.ieOvr := rfl
@[simp] theorem State.finish_busy : s.finish.busy = false := rfl
@[simp] theorem State.finish_done : s.finish.done = true := rfl
@[simp] theorem State.finish_err : s.finish.err = s.err := rfl
@[simp] theorem State.finish_ovr : s.finish.ovr = s.ovr := rfl
@[simp] theorem State.finish_ecode : s.finish.ecode = s.ecode := rfl
@[simp] theorem State.finish_cmd : s.finish.cmd = s.cmd := rfl
@[simp] theorem State.finish_pend : s.finish.pend = none := rfl
@[simp] theorem State.finish_errcmd : s.finish.errcmd = s.errcmd := rfl
@[simp] theorem State.finish_klen : s.finish.klen = s.klen := rfl
@[simp] theorem State.finish_msglen : s.finish.msglen = s.msglen := rfl
@[simp] theorem State.finish_keyHi : s.finish.keyHi = s.keyHi := rfl
@[simp] theorem State.finish_keyLo : s.finish.keyLo = s.keyLo := rfl
@[simp] theorem State.finish_dataL : s.finish.dataL = s.dataL := rfl
@[simp] theorem State.finish_dataR : s.finish.dataR = s.dataR := rfl
@[simp] theorem State.finish_rk : s.finish.rk = s.rk := rfl
@[simp] theorem State.finish_fin : s.finish.fin = s.fin := rfl
@[simp] theorem State.finish_fkey : s.finish.fkey = s.fkey := rfl
@[simp] theorem State.finish_fout : s.finish.fout = s.fout := rfl
@[simp] theorem State.finish_plen : s.finish.plen = s.plen := rfl
@[simp] theorem State.finish_vcnt : s.finish.vcnt = s.vcnt := rfl
@[simp] theorem State.finish_buf : s.finish.buf = s.buf := rfl
@[simp] theorem State.finish_cfg : s.finish.cfg = s.cfg := rfl
@[simp] theorem State.finish_rst : s.finish.rst = s.rst := rfl
@[simp] theorem State.finish_schedule : s.finish.schedule = s.schedule := rfl
@[simp] theorem State.finish_draws : s.finish.draws = s.draws := rfl
@[simp] theorem State.finish_port : s.finish.port = s.port := rfl
@[simp] theorem State.finish_bufByte (o : Nat) : s.finish.bufByte o = s.bufByte o := rfl

/-! ### State.fail -/

@[simp] theorem State.fail_ieDone (e : ErrCode) : (s.fail e).ieDone = s.ieDone := rfl
@[simp] theorem State.fail_ieErr (e : ErrCode) : (s.fail e).ieErr = s.ieErr := rfl
@[simp] theorem State.fail_ieOvr (e : ErrCode) : (s.fail e).ieOvr = s.ieOvr := rfl
@[simp] theorem State.fail_busy (e : ErrCode) : (s.fail e).busy = false := rfl
@[simp] theorem State.fail_done (e : ErrCode) : (s.fail e).done = true := rfl
@[simp] theorem State.fail_err (e : ErrCode) : (s.fail e).err = true := rfl
@[simp] theorem State.fail_ovr (e : ErrCode) : (s.fail e).ovr = s.ovr := rfl
@[simp] theorem State.fail_ecode (e : ErrCode) : (s.fail e).ecode = (if s.err then s.ecode else e.code) := rfl
@[simp] theorem State.fail_cmd (e : ErrCode) : (s.fail e).cmd = s.cmd := rfl
@[simp] theorem State.fail_pend (e : ErrCode) : (s.fail e).pend = none := rfl
@[simp] theorem State.fail_errcmd (e : ErrCode) : (s.fail e).errcmd = (if s.err then s.errcmd else s.failingWord) := rfl
@[simp] theorem State.fail_klen (e : ErrCode) : (s.fail e).klen = s.klen := rfl
@[simp] theorem State.fail_msglen (e : ErrCode) : (s.fail e).msglen = s.msglen := rfl
@[simp] theorem State.fail_keyHi (e : ErrCode) : (s.fail e).keyHi = s.keyHi := rfl
@[simp] theorem State.fail_keyLo (e : ErrCode) : (s.fail e).keyLo = s.keyLo := rfl
@[simp] theorem State.fail_dataL (e : ErrCode) : (s.fail e).dataL = s.dataL := rfl
@[simp] theorem State.fail_dataR (e : ErrCode) : (s.fail e).dataR = s.dataR := rfl
@[simp] theorem State.fail_rk (e : ErrCode) : (s.fail e).rk = s.rk := rfl
@[simp] theorem State.fail_fin (e : ErrCode) : (s.fail e).fin = s.fin := rfl
@[simp] theorem State.fail_fkey (e : ErrCode) : (s.fail e).fkey = s.fkey := rfl
@[simp] theorem State.fail_fout (e : ErrCode) : (s.fail e).fout = s.fout := rfl
@[simp] theorem State.fail_plen (e : ErrCode) : (s.fail e).plen = s.plen := rfl
@[simp] theorem State.fail_vcnt (e : ErrCode) : (s.fail e).vcnt = s.vcnt := rfl
@[simp] theorem State.fail_buf (e : ErrCode) : (s.fail e).buf = s.buf := rfl
@[simp] theorem State.fail_cfg (e : ErrCode) : (s.fail e).cfg = s.cfg := rfl
@[simp] theorem State.fail_rst (e : ErrCode) : (s.fail e).rst = s.rst := rfl
@[simp] theorem State.fail_schedule (e : ErrCode) : (s.fail e).schedule = s.schedule := rfl
@[simp] theorem State.fail_draws (e : ErrCode) : (s.fail e).draws = s.draws := rfl
@[simp] theorem State.fail_port (e : ErrCode) : (s.fail e).port = s.port := rfl
@[simp] theorem State.fail_bufByte (e : ErrCode) (o : Nat) : (s.fail e).bufByte o = s.bufByte o := rfl

/-! ### State.ackError -/

@[simp] theorem State.ackError_ieDone : s.ackError.ieDone = s.ieDone := rfl
@[simp] theorem State.ackError_ieErr : s.ackError.ieErr = s.ieErr := rfl
@[simp] theorem State.ackError_ieOvr : s.ackError.ieOvr = s.ieOvr := rfl
@[simp] theorem State.ackError_busy : s.ackError.busy = s.busy := rfl
@[simp] theorem State.ackError_done : s.ackError.done = s.done := rfl
@[simp] theorem State.ackError_err : s.ackError.err = false := rfl
@[simp] theorem State.ackError_ovr : s.ackError.ovr = s.ovr := rfl
@[simp] theorem State.ackError_ecode : s.ackError.ecode = 0 := rfl
@[simp] theorem State.ackError_cmd : s.ackError.cmd = s.cmd := rfl
@[simp] theorem State.ackError_pend : s.ackError.pend = s.pend := rfl
@[simp] theorem State.ackError_errcmd : s.ackError.errcmd = 0 := rfl
@[simp] theorem State.ackError_klen : s.ackError.klen = s.klen := rfl
@[simp] theorem State.ackError_msglen : s.ackError.msglen = s.msglen := rfl
@[simp] theorem State.ackError_keyHi : s.ackError.keyHi = s.keyHi := rfl
@[simp] theorem State.ackError_keyLo : s.ackError.keyLo = s.keyLo := rfl
@[simp] theorem State.ackError_dataL : s.ackError.dataL = s.dataL := rfl
@[simp] theorem State.ackError_dataR : s.ackError.dataR = s.dataR := rfl
@[simp] theorem State.ackError_rk : s.ackError.rk = s.rk := rfl
@[simp] theorem State.ackError_fin : s.ackError.fin = s.fin := rfl
@[simp] theorem State.ackError_fkey : s.ackError.fkey = s.fkey := rfl
@[simp] theorem State.ackError_fout : s.ackError.fout = s.fout := rfl
@[simp] theorem State.ackError_plen : s.ackError.plen = s.plen := rfl
@[simp] theorem State.ackError_vcnt : s.ackError.vcnt = s.vcnt := rfl
@[simp] theorem State.ackError_buf : s.ackError.buf = s.buf := rfl
@[simp] theorem State.ackError_cfg : s.ackError.cfg = s.cfg := rfl
@[simp] theorem State.ackError_rst : s.ackError.rst = s.rst := rfl
@[simp] theorem State.ackError_schedule : s.ackError.schedule = s.schedule := rfl
@[simp] theorem State.ackError_draws : s.ackError.draws = s.draws := rfl
@[simp] theorem State.ackError_port : s.ackError.port = s.port := rfl
@[simp] theorem State.ackError_bufByte (o : Nat) : s.ackError.bufByte o = s.bufByte o := rfl

/-! ### State.clear -/

@[simp] theorem State.clear_ieDone : s.clear.ieDone = false := rfl
@[simp] theorem State.clear_ieErr : s.clear.ieErr = false := rfl
@[simp] theorem State.clear_ieOvr : s.clear.ieOvr = false := rfl
@[simp] theorem State.clear_busy : s.clear.busy = false := rfl
@[simp] theorem State.clear_done : s.clear.done = false := rfl
@[simp] theorem State.clear_err : s.clear.err = false := rfl
@[simp] theorem State.clear_ovr : s.clear.ovr = false := rfl
@[simp] theorem State.clear_ecode : s.clear.ecode = 0 := rfl
@[simp] theorem State.clear_cmd : s.clear.cmd = 0 := rfl
@[simp] theorem State.clear_pend : s.clear.pend = none := rfl
@[simp] theorem State.clear_errcmd : s.clear.errcmd = 0 := rfl
@[simp] theorem State.clear_klen : s.clear.klen = 0 := rfl
@[simp] theorem State.clear_msglen : s.clear.msglen = 0 := rfl
@[simp] theorem State.clear_keyHi : s.clear.keyHi = 0 := rfl
@[simp] theorem State.clear_keyLo : s.clear.keyLo = 0 := rfl
@[simp] theorem State.clear_dataL : s.clear.dataL = 0 := rfl
@[simp] theorem State.clear_dataR : s.clear.dataR = 0 := rfl
@[simp] theorem State.clear_rk : s.clear.rk = { rk0 := 0, rk1 := 0, rk2 := 0, rk3 := 0 } := rfl
@[simp] theorem State.clear_fin : s.clear.fin = 0 := rfl
@[simp] theorem State.clear_fkey : s.clear.fkey = 0 := rfl
@[simp] theorem State.clear_fout : s.clear.fout = 0 := rfl
@[simp] theorem State.clear_plen : s.clear.plen = 0 := rfl
@[simp] theorem State.clear_vcnt : s.clear.vcnt = 0 := rfl
@[simp] theorem State.clear_buf : s.clear.buf = [] := rfl
@[simp] theorem State.clear_cfg : s.clear.cfg = s.cfg := rfl
@[simp] theorem State.clear_rst : s.clear.rst = s.rst := rfl
@[simp] theorem State.clear_schedule : s.clear.schedule = s.schedule := rfl
@[simp] theorem State.clear_draws : s.clear.draws = s.draws := rfl
@[simp] theorem State.clear_port : s.clear.port = s.port := rfl
@[simp] theorem State.clear_bufByte (o : Nat) : s.clear.bufByte o = Config.bufDraw s.draws o := rfl

/-! ### State.slot -/

@[simp] theorem State.slot_ieDone : s.slot.ieDone = s.ieDone := rfl
@[simp] theorem State.slot_ieErr : s.slot.ieErr = s.ieErr := rfl
@[simp] theorem State.slot_ieOvr : s.slot.ieOvr = s.ieOvr := rfl
@[simp] theorem State.slot_busy : s.slot.busy = s.busy := rfl
@[simp] theorem State.slot_done : s.slot.done = s.done := rfl
@[simp] theorem State.slot_err : s.slot.err = s.err := rfl
@[simp] theorem State.slot_ovr : s.slot.ovr = s.ovr := rfl
@[simp] theorem State.slot_ecode : s.slot.ecode = s.ecode := rfl
@[simp] theorem State.slot_cmd : s.slot.cmd = s.cmd := rfl
@[simp] theorem State.slot_pend : s.slot.pend = s.pend := rfl
@[simp] theorem State.slot_errcmd : s.slot.errcmd = s.errcmd := rfl
@[simp] theorem State.slot_klen : s.slot.klen = s.klen := rfl
@[simp] theorem State.slot_msglen : s.slot.msglen = s.msglen := rfl
@[simp] theorem State.slot_keyHi : s.slot.keyHi = s.keyHi := rfl
@[simp] theorem State.slot_keyLo : s.slot.keyLo = s.keyLo := rfl
@[simp] theorem State.slot_dataL : s.slot.dataL = s.dataL := rfl
@[simp] theorem State.slot_dataR : s.slot.dataR = s.dataR := rfl
@[simp] theorem State.slot_rk : s.slot.rk = s.rk := rfl
@[simp] theorem State.slot_fin : s.slot.fin = s.fin := rfl
@[simp] theorem State.slot_fkey : s.slot.fkey = s.fkey := rfl
@[simp] theorem State.slot_fout : s.slot.fout = s.fout := rfl
@[simp] theorem State.slot_plen : s.slot.plen = s.plen := rfl
@[simp] theorem State.slot_vcnt : s.slot.vcnt = s.vcnt := rfl
@[simp] theorem State.slot_buf : s.slot.buf = s.buf := rfl
@[simp] theorem State.slot_cfg : s.slot.cfg = s.cfg := rfl
@[simp] theorem State.slot_rst : s.slot.rst = s.rst := rfl
@[simp] theorem State.slot_schedule : s.slot.schedule = s.schedule.tail := rfl
@[simp] theorem State.slot_draws : s.slot.draws = s.draws + 1 := rfl
@[simp] theorem State.slot_port : s.slot.port = s.port := rfl

/-! ### State.clearDone -/

@[simp] theorem State.clearDone_ieDone : s.clearDone.ieDone = s.ieDone := rfl
@[simp] theorem State.clearDone_ieErr : s.clearDone.ieErr = s.ieErr := rfl
@[simp] theorem State.clearDone_ieOvr : s.clearDone.ieOvr = s.ieOvr := rfl
@[simp] theorem State.clearDone_busy : s.clearDone.busy = s.busy := rfl
@[simp] theorem State.clearDone_done : s.clearDone.done = false := rfl
@[simp] theorem State.clearDone_err : s.clearDone.err = s.err := rfl
@[simp] theorem State.clearDone_ovr : s.clearDone.ovr = s.ovr := rfl
@[simp] theorem State.clearDone_ecode : s.clearDone.ecode = s.ecode := rfl
@[simp] theorem State.clearDone_cmd : s.clearDone.cmd = s.cmd := rfl
@[simp] theorem State.clearDone_pend : s.clearDone.pend = s.pend := rfl
@[simp] theorem State.clearDone_errcmd : s.clearDone.errcmd = s.errcmd := rfl
@[simp] theorem State.clearDone_klen : s.clearDone.klen = s.klen := rfl
@[simp] theorem State.clearDone_msglen : s.clearDone.msglen = s.msglen := rfl
@[simp] theorem State.clearDone_keyHi : s.clearDone.keyHi = s.keyHi := rfl
@[simp] theorem State.clearDone_keyLo : s.clearDone.keyLo = s.keyLo := rfl
@[simp] theorem State.clearDone_dataL : s.clearDone.dataL = s.dataL := rfl
@[simp] theorem State.clearDone_dataR : s.clearDone.dataR = s.dataR := rfl
@[simp] theorem State.clearDone_rk : s.clearDone.rk = s.rk := rfl
@[simp] theorem State.clearDone_fin : s.clearDone.fin = s.fin := rfl
@[simp] theorem State.clearDone_fkey : s.clearDone.fkey = s.fkey := rfl
@[simp] theorem State.clearDone_fout : s.clearDone.fout = s.fout := rfl
@[simp] theorem State.clearDone_plen : s.clearDone.plen = s.plen := rfl
@[simp] theorem State.clearDone_vcnt : s.clearDone.vcnt = s.vcnt := rfl
@[simp] theorem State.clearDone_buf : s.clearDone.buf = s.buf := rfl
@[simp] theorem State.clearDone_cfg : s.clearDone.cfg = s.cfg := rfl
@[simp] theorem State.clearDone_rst : s.clearDone.rst = s.rst := rfl
@[simp] theorem State.clearDone_schedule : s.clearDone.schedule = s.schedule := rfl
@[simp] theorem State.clearDone_draws : s.clearDone.draws = s.draws := rfl
@[simp] theorem State.clearDone_port : s.clearDone.port = s.port := rfl
@[simp] theorem State.clearDone_bufByte (o : Nat) : s.clearDone.bufByte o = s.bufByte o := rfl

/-! ### State.clearOvr -/

@[simp] theorem State.clearOvr_ieDone : s.clearOvr.ieDone = s.ieDone := rfl
@[simp] theorem State.clearOvr_ieErr : s.clearOvr.ieErr = s.ieErr := rfl
@[simp] theorem State.clearOvr_ieOvr : s.clearOvr.ieOvr = s.ieOvr := rfl
@[simp] theorem State.clearOvr_busy : s.clearOvr.busy = s.busy := rfl
@[simp] theorem State.clearOvr_done : s.clearOvr.done = s.done := rfl
@[simp] theorem State.clearOvr_err : s.clearOvr.err = s.err := rfl
@[simp] theorem State.clearOvr_ovr : s.clearOvr.ovr = false := rfl
@[simp] theorem State.clearOvr_ecode : s.clearOvr.ecode = s.ecode := rfl
@[simp] theorem State.clearOvr_cmd : s.clearOvr.cmd = s.cmd := rfl
@[simp] theorem State.clearOvr_pend : s.clearOvr.pend = s.pend := rfl
@[simp] theorem State.clearOvr_errcmd : s.clearOvr.errcmd = s.errcmd := rfl
@[simp] theorem State.clearOvr_klen : s.clearOvr.klen = s.klen := rfl
@[simp] theorem State.clearOvr_msglen : s.clearOvr.msglen = s.msglen := rfl
@[simp] theorem State.clearOvr_keyHi : s.clearOvr.keyHi = s.keyHi := rfl
@[simp] theorem State.clearOvr_keyLo : s.clearOvr.keyLo = s.keyLo := rfl
@[simp] theorem State.clearOvr_dataL : s.clearOvr.dataL = s.dataL := rfl
@[simp] theorem State.clearOvr_dataR : s.clearOvr.dataR = s.dataR := rfl
@[simp] theorem State.clearOvr_rk : s.clearOvr.rk = s.rk := rfl
@[simp] theorem State.clearOvr_fin : s.clearOvr.fin = s.fin := rfl
@[simp] theorem State.clearOvr_fkey : s.clearOvr.fkey = s.fkey := rfl
@[simp] theorem State.clearOvr_fout : s.clearOvr.fout = s.fout := rfl
@[simp] theorem State.clearOvr_plen : s.clearOvr.plen = s.plen := rfl
@[simp] theorem State.clearOvr_vcnt : s.clearOvr.vcnt = s.vcnt := rfl
@[simp] theorem State.clearOvr_buf : s.clearOvr.buf = s.buf := rfl
@[simp] theorem State.clearOvr_cfg : s.clearOvr.cfg = s.cfg := rfl
@[simp] theorem State.clearOvr_rst : s.clearOvr.rst = s.rst := rfl
@[simp] theorem State.clearOvr_schedule : s.clearOvr.schedule = s.schedule := rfl
@[simp] theorem State.clearOvr_draws : s.clearOvr.draws = s.draws := rfl
@[simp] theorem State.clearOvr_port : s.clearOvr.port = s.port := rfl
@[simp] theorem State.clearOvr_bufByte (o : Nat) : s.clearOvr.bufByte o = s.bufByte o := rfl

/-! ### State.setOvr -/

@[simp] theorem State.setOvr_ieDone : s.setOvr.ieDone = s.ieDone := rfl
@[simp] theorem State.setOvr_ieErr : s.setOvr.ieErr = s.ieErr := rfl
@[simp] theorem State.setOvr_ieOvr : s.setOvr.ieOvr = s.ieOvr := rfl
@[simp] theorem State.setOvr_busy : s.setOvr.busy = s.busy := rfl
@[simp] theorem State.setOvr_done : s.setOvr.done = s.done := rfl
@[simp] theorem State.setOvr_err : s.setOvr.err = s.err := rfl
@[simp] theorem State.setOvr_ovr : s.setOvr.ovr = true := rfl
@[simp] theorem State.setOvr_ecode : s.setOvr.ecode = s.ecode := rfl
@[simp] theorem State.setOvr_cmd : s.setOvr.cmd = s.cmd := rfl
@[simp] theorem State.setOvr_pend : s.setOvr.pend = s.pend := rfl
@[simp] theorem State.setOvr_errcmd : s.setOvr.errcmd = s.errcmd := rfl
@[simp] theorem State.setOvr_klen : s.setOvr.klen = s.klen := rfl
@[simp] theorem State.setOvr_msglen : s.setOvr.msglen = s.msglen := rfl
@[simp] theorem State.setOvr_keyHi : s.setOvr.keyHi = s.keyHi := rfl
@[simp] theorem State.setOvr_keyLo : s.setOvr.keyLo = s.keyLo := rfl
@[simp] theorem State.setOvr_dataL : s.setOvr.dataL = s.dataL := rfl
@[simp] theorem State.setOvr_dataR : s.setOvr.dataR = s.dataR := rfl
@[simp] theorem State.setOvr_rk : s.setOvr.rk = s.rk := rfl
@[simp] theorem State.setOvr_fin : s.setOvr.fin = s.fin := rfl
@[simp] theorem State.setOvr_fkey : s.setOvr.fkey = s.fkey := rfl
@[simp] theorem State.setOvr_fout : s.setOvr.fout = s.fout := rfl
@[simp] theorem State.setOvr_plen : s.setOvr.plen = s.plen := rfl
@[simp] theorem State.setOvr_vcnt : s.setOvr.vcnt = s.vcnt := rfl
@[simp] theorem State.setOvr_buf : s.setOvr.buf = s.buf := rfl
@[simp] theorem State.setOvr_cfg : s.setOvr.cfg = s.cfg := rfl
@[simp] theorem State.setOvr_rst : s.setOvr.rst = s.rst := rfl
@[simp] theorem State.setOvr_schedule : s.setOvr.schedule = s.schedule := rfl
@[simp] theorem State.setOvr_draws : s.setOvr.draws = s.draws := rfl
@[simp] theorem State.setOvr_port : s.setOvr.port = s.port := rfl
@[simp] theorem State.setOvr_bufByte (o : Nat) : s.setOvr.bufByte o = s.bufByte o := rfl

/-! ### State.setEnables -/

@[simp] theorem State.setEnables_ieDone (v : Word) : (s.setEnables v).ieDone = v[0] := rfl
@[simp] theorem State.setEnables_ieErr (v : Word) : (s.setEnables v).ieErr = v[1] := rfl
@[simp] theorem State.setEnables_ieOvr (v : Word) : (s.setEnables v).ieOvr = v[2] := rfl
@[simp] theorem State.setEnables_busy (v : Word) : (s.setEnables v).busy = s.busy := rfl
@[simp] theorem State.setEnables_done (v : Word) : (s.setEnables v).done = s.done := rfl
@[simp] theorem State.setEnables_err (v : Word) : (s.setEnables v).err = s.err := rfl
@[simp] theorem State.setEnables_ovr (v : Word) : (s.setEnables v).ovr = s.ovr := rfl
@[simp] theorem State.setEnables_ecode (v : Word) : (s.setEnables v).ecode = s.ecode := rfl
@[simp] theorem State.setEnables_cmd (v : Word) : (s.setEnables v).cmd = s.cmd := rfl
@[simp] theorem State.setEnables_pend (v : Word) : (s.setEnables v).pend = s.pend := rfl
@[simp] theorem State.setEnables_errcmd (v : Word) : (s.setEnables v).errcmd = s.errcmd := rfl
@[simp] theorem State.setEnables_klen (v : Word) : (s.setEnables v).klen = s.klen := rfl
@[simp] theorem State.setEnables_msglen (v : Word) : (s.setEnables v).msglen = s.msglen := rfl
@[simp] theorem State.setEnables_keyHi (v : Word) : (s.setEnables v).keyHi = s.keyHi := rfl
@[simp] theorem State.setEnables_keyLo (v : Word) : (s.setEnables v).keyLo = s.keyLo := rfl
@[simp] theorem State.setEnables_dataL (v : Word) : (s.setEnables v).dataL = s.dataL := rfl
@[simp] theorem State.setEnables_dataR (v : Word) : (s.setEnables v).dataR = s.dataR := rfl
@[simp] theorem State.setEnables_rk (v : Word) : (s.setEnables v).rk = s.rk := rfl
@[simp] theorem State.setEnables_fin (v : Word) : (s.setEnables v).fin = s.fin := rfl
@[simp] theorem State.setEnables_fkey (v : Word) : (s.setEnables v).fkey = s.fkey := rfl
@[simp] theorem State.setEnables_fout (v : Word) : (s.setEnables v).fout = s.fout := rfl
@[simp] theorem State.setEnables_plen (v : Word) : (s.setEnables v).plen = s.plen := rfl
@[simp] theorem State.setEnables_vcnt (v : Word) : (s.setEnables v).vcnt = s.vcnt := rfl
@[simp] theorem State.setEnables_buf (v : Word) : (s.setEnables v).buf = s.buf := rfl
@[simp] theorem State.setEnables_cfg (v : Word) : (s.setEnables v).cfg = s.cfg := rfl
@[simp] theorem State.setEnables_rst (v : Word) : (s.setEnables v).rst = s.rst := rfl
@[simp] theorem State.setEnables_schedule (v : Word) : (s.setEnables v).schedule = s.schedule := rfl
@[simp] theorem State.setEnables_draws (v : Word) : (s.setEnables v).draws = s.draws := rfl
@[simp] theorem State.setEnables_port (v : Word) : (s.setEnables v).port = s.port := rfl
@[simp] theorem State.setEnables_bufByte (v : Word) (o : Nat) : (s.setEnables v).bufByte o = s.bufByte o := rfl

/-! ### State.answer -/

@[simp] theorem State.answer_ieDone (x : Answer) : (s.answer x).ieDone = s.ieDone := rfl
@[simp] theorem State.answer_ieErr (x : Answer) : (s.answer x).ieErr = s.ieErr := rfl
@[simp] theorem State.answer_ieOvr (x : Answer) : (s.answer x).ieOvr = s.ieOvr := rfl
@[simp] theorem State.answer_busy (x : Answer) : (s.answer x).busy = s.busy := rfl
@[simp] theorem State.answer_done (x : Answer) : (s.answer x).done = s.done := rfl
@[simp] theorem State.answer_err (x : Answer) : (s.answer x).err = s.err := rfl
@[simp] theorem State.answer_ovr (x : Answer) : (s.answer x).ovr = s.ovr := rfl
@[simp] theorem State.answer_ecode (x : Answer) : (s.answer x).ecode = s.ecode := rfl
@[simp] theorem State.answer_cmd (x : Answer) : (s.answer x).cmd = s.cmd := rfl
@[simp] theorem State.answer_pend (x : Answer) : (s.answer x).pend = s.pend := rfl
@[simp] theorem State.answer_errcmd (x : Answer) : (s.answer x).errcmd = s.errcmd := rfl
@[simp] theorem State.answer_klen (x : Answer) : (s.answer x).klen = s.klen := rfl
@[simp] theorem State.answer_msglen (x : Answer) : (s.answer x).msglen = s.msglen := rfl
@[simp] theorem State.answer_keyHi (x : Answer) : (s.answer x).keyHi = s.keyHi := rfl
@[simp] theorem State.answer_keyLo (x : Answer) : (s.answer x).keyLo = s.keyLo := rfl
@[simp] theorem State.answer_dataL (x : Answer) : (s.answer x).dataL = s.dataL := rfl
@[simp] theorem State.answer_dataR (x : Answer) : (s.answer x).dataR = s.dataR := rfl
@[simp] theorem State.answer_rk (x : Answer) : (s.answer x).rk = s.rk := rfl
@[simp] theorem State.answer_fin (x : Answer) : (s.answer x).fin = s.fin := rfl
@[simp] theorem State.answer_fkey (x : Answer) : (s.answer x).fkey = s.fkey := rfl
@[simp] theorem State.answer_fout (x : Answer) : (s.answer x).fout = s.fout := rfl
@[simp] theorem State.answer_plen (x : Answer) : (s.answer x).plen = s.plen := rfl
@[simp] theorem State.answer_vcnt (x : Answer) : (s.answer x).vcnt = s.vcnt := rfl
@[simp] theorem State.answer_buf (x : Answer) : (s.answer x).buf = s.buf := rfl
@[simp] theorem State.answer_cfg (x : Answer) : (s.answer x).cfg = s.cfg := rfl
@[simp] theorem State.answer_rst (x : Answer) : (s.answer x).rst = s.rst := rfl
@[simp] theorem State.answer_schedule (x : Answer) : (s.answer x).schedule = s.schedule := rfl
@[simp] theorem State.answer_draws (x : Answer) : (s.answer x).draws = s.draws := rfl
@[simp] theorem State.answer_port (x : Answer) : (s.answer x).port = some x := rfl
@[simp] theorem State.answer_bufByte (x : Answer) (o : Nat) : (s.answer x).bufByte o = s.bufByte o := rfl

/-! ### State.assertReset -/

@[simp] theorem State.assertReset_ieDone : s.assertReset.ieDone = false := rfl
@[simp] theorem State.assertReset_ieErr : s.assertReset.ieErr = false := rfl
@[simp] theorem State.assertReset_ieOvr : s.assertReset.ieOvr = false := rfl
@[simp] theorem State.assertReset_busy : s.assertReset.busy = false := rfl
@[simp] theorem State.assertReset_done : s.assertReset.done = false := rfl
@[simp] theorem State.assertReset_err : s.assertReset.err = false := rfl
@[simp] theorem State.assertReset_ovr : s.assertReset.ovr = false := rfl
@[simp] theorem State.assertReset_ecode : s.assertReset.ecode = 0 := rfl
@[simp] theorem State.assertReset_cmd : s.assertReset.cmd = 0 := rfl
@[simp] theorem State.assertReset_pend : s.assertReset.pend = none := rfl
@[simp] theorem State.assertReset_errcmd : s.assertReset.errcmd = 0 := rfl
@[simp] theorem State.assertReset_klen : s.assertReset.klen = 0 := rfl
@[simp] theorem State.assertReset_msglen : s.assertReset.msglen = 0 := rfl
@[simp] theorem State.assertReset_keyHi : s.assertReset.keyHi = 0 := rfl
@[simp] theorem State.assertReset_keyLo : s.assertReset.keyLo = 0 := rfl
@[simp] theorem State.assertReset_dataL : s.assertReset.dataL = 0 := rfl
@[simp] theorem State.assertReset_dataR : s.assertReset.dataR = 0 := rfl
@[simp] theorem State.assertReset_rk : s.assertReset.rk = { rk0 := 0, rk1 := 0, rk2 := 0, rk3 := 0 } := rfl
@[simp] theorem State.assertReset_fin : s.assertReset.fin = 0 := rfl
@[simp] theorem State.assertReset_fkey : s.assertReset.fkey = 0 := rfl
@[simp] theorem State.assertReset_fout : s.assertReset.fout = 0 := rfl
@[simp] theorem State.assertReset_plen : s.assertReset.plen = 0 := rfl
@[simp] theorem State.assertReset_vcnt : s.assertReset.vcnt = 0 := rfl
@[simp] theorem State.assertReset_buf : s.assertReset.buf = [] := rfl
@[simp] theorem State.assertReset_cfg : s.assertReset.cfg = s.cfg := rfl
@[simp] theorem State.assertReset_rst : s.assertReset.rst = true := rfl
@[simp] theorem State.assertReset_schedule : s.assertReset.schedule = s.schedule := rfl
@[simp] theorem State.assertReset_draws : s.assertReset.draws = s.draws := rfl
@[simp] theorem State.assertReset_port : s.assertReset.port = s.port := rfl
@[simp] theorem State.assertReset_bufByte (o : Nat) : s.assertReset.bufByte o = Config.bufDraw s.draws o := rfl

/-! ### State.releaseReset -/

@[simp] theorem State.releaseReset_ieDone : s.releaseReset.ieDone = s.ieDone := rfl
@[simp] theorem State.releaseReset_ieErr : s.releaseReset.ieErr = s.ieErr := rfl
@[simp] theorem State.releaseReset_ieOvr : s.releaseReset.ieOvr = s.ieOvr := rfl
@[simp] theorem State.releaseReset_busy : s.releaseReset.busy = s.busy := rfl
@[simp] theorem State.releaseReset_done : s.releaseReset.done = s.done := rfl
@[simp] theorem State.releaseReset_err : s.releaseReset.err = s.err := rfl
@[simp] theorem State.releaseReset_ovr : s.releaseReset.ovr = s.ovr := rfl
@[simp] theorem State.releaseReset_ecode : s.releaseReset.ecode = s.ecode := rfl
@[simp] theorem State.releaseReset_cmd : s.releaseReset.cmd = s.cmd := rfl
@[simp] theorem State.releaseReset_pend : s.releaseReset.pend = s.pend := rfl
@[simp] theorem State.releaseReset_errcmd : s.releaseReset.errcmd = s.errcmd := rfl
@[simp] theorem State.releaseReset_klen : s.releaseReset.klen = s.klen := rfl
@[simp] theorem State.releaseReset_msglen : s.releaseReset.msglen = s.msglen := rfl
@[simp] theorem State.releaseReset_keyHi : s.releaseReset.keyHi = s.keyHi := rfl
@[simp] theorem State.releaseReset_keyLo : s.releaseReset.keyLo = s.keyLo := rfl
@[simp] theorem State.releaseReset_dataL : s.releaseReset.dataL = s.dataL := rfl
@[simp] theorem State.releaseReset_dataR : s.releaseReset.dataR = s.dataR := rfl
@[simp] theorem State.releaseReset_rk : s.releaseReset.rk = s.rk := rfl
@[simp] theorem State.releaseReset_fin : s.releaseReset.fin = s.fin := rfl
@[simp] theorem State.releaseReset_fkey : s.releaseReset.fkey = s.fkey := rfl
@[simp] theorem State.releaseReset_fout : s.releaseReset.fout = s.fout := rfl
@[simp] theorem State.releaseReset_plen : s.releaseReset.plen = s.plen := rfl
@[simp] theorem State.releaseReset_vcnt : s.releaseReset.vcnt = s.vcnt := rfl
@[simp] theorem State.releaseReset_buf : s.releaseReset.buf = s.buf := rfl
@[simp] theorem State.releaseReset_cfg : s.releaseReset.cfg = s.cfg := rfl
@[simp] theorem State.releaseReset_rst : s.releaseReset.rst = false := rfl
@[simp] theorem State.releaseReset_schedule : s.releaseReset.schedule = s.schedule := rfl
@[simp] theorem State.releaseReset_draws : s.releaseReset.draws = s.draws := rfl
@[simp] theorem State.releaseReset_port : s.releaseReset.port = s.port := rfl
@[simp] theorem State.releaseReset_bufByte (o : Nat) : s.releaseReset.bufByte o = s.bufByte o := rfl

/-! ### State.withCommand -/

@[simp] theorem State.withCommand_ieDone (w : Word) : (s.withCommand w).ieDone = s.ieDone := rfl
@[simp] theorem State.withCommand_ieErr (w : Word) : (s.withCommand w).ieErr = s.ieErr := rfl
@[simp] theorem State.withCommand_ieOvr (w : Word) : (s.withCommand w).ieOvr = s.ieOvr := rfl
@[simp] theorem State.withCommand_busy (w : Word) : (s.withCommand w).busy = true := rfl
@[simp] theorem State.withCommand_done (w : Word) : (s.withCommand w).done = false := rfl
@[simp] theorem State.withCommand_err (w : Word) : (s.withCommand w).err = s.err := rfl
@[simp] theorem State.withCommand_ovr (w : Word) : (s.withCommand w).ovr = s.ovr := rfl
@[simp] theorem State.withCommand_ecode (w : Word) : (s.withCommand w).ecode = s.ecode := rfl
@[simp] theorem State.withCommand_cmd (w : Word) : (s.withCommand w).cmd = w := rfl
@[simp] theorem State.withCommand_pend (w : Word) : (s.withCommand w).pend = some w := rfl
@[simp] theorem State.withCommand_errcmd (w : Word) : (s.withCommand w).errcmd = s.errcmd := rfl
@[simp] theorem State.withCommand_klen (w : Word) : (s.withCommand w).klen = s.klen := rfl
@[simp] theorem State.withCommand_msglen (w : Word) : (s.withCommand w).msglen = s.msglen := rfl
@[simp] theorem State.withCommand_keyHi (w : Word) : (s.withCommand w).keyHi = s.keyHi := rfl
@[simp] theorem State.withCommand_keyLo (w : Word) : (s.withCommand w).keyLo = s.keyLo := rfl
@[simp] theorem State.withCommand_dataL (w : Word) : (s.withCommand w).dataL = s.dataL := rfl
@[simp] theorem State.withCommand_dataR (w : Word) : (s.withCommand w).dataR = s.dataR := rfl
@[simp] theorem State.withCommand_rk (w : Word) : (s.withCommand w).rk = s.rk := rfl
@[simp] theorem State.withCommand_fin (w : Word) : (s.withCommand w).fin = s.fin := rfl
@[simp] theorem State.withCommand_fkey (w : Word) : (s.withCommand w).fkey = s.fkey := rfl
@[simp] theorem State.withCommand_fout (w : Word) : (s.withCommand w).fout = s.fout := rfl
@[simp] theorem State.withCommand_plen (w : Word) : (s.withCommand w).plen = s.plen := rfl
@[simp] theorem State.withCommand_vcnt (w : Word) : (s.withCommand w).vcnt = s.vcnt := rfl
@[simp] theorem State.withCommand_buf (w : Word) : (s.withCommand w).buf = s.buf := rfl
@[simp] theorem State.withCommand_cfg (w : Word) : (s.withCommand w).cfg = s.cfg := rfl
@[simp] theorem State.withCommand_rst (w : Word) : (s.withCommand w).rst = false := rfl
@[simp] theorem State.withCommand_schedule (w : Word) : (s.withCommand w).schedule = .engine :: s.schedule := rfl
@[simp] theorem State.withCommand_draws (w : Word) : (s.withCommand w).draws = s.draws := rfl
@[simp] theorem State.withCommand_port (w : Word) : (s.withCommand w).port = s.port := rfl
@[simp] theorem State.withCommand_bufByte (w : Word) (o : Nat) : (s.withCommand w).bufByte o = s.bufByte o := rfl

end

end Sys2Proof.Machine
end

