-- ==== Sys2Proof/Laws/Exec.lean ====
section
/-! SUPPORT. What a command can do, said once (10_state.md R61, 60_exceptions.md R281), and the cases of each command
whose meaning has a condition. -/

namespace Sys2Proof.Machine

/-- The writes of a command before it finishes or fails: the result registers of 10_state.md R62 and nothing else, BUF
kept in form and inside BUF_BYTES, PADRES kept in form. -/
structure Effect (s u : State) : Prop where
  frame : u = { s with
    msglen := u.msglen, dataL := u.dataL, dataR := u.dataR, rk := u.rk, fout := u.fout,
    plen := u.plen, vcnt := u.vcnt, buf := u.buf }
  wf : s.buf.wf → u.buf.wf
  below : s.cfg.wf → s.buf.below s.cfg.bufBytes → u.buf.below s.cfg.bufBytes
  padres : s.padresOk → u.padresOk

theorem Effect.refl (s : State) : Effect s s := ⟨rfl, id, fun _ => id, id⟩

/-- What a command's writes leave alone, field by field. -/
theorem Effect.fields {s u : State} (h : Effect s u) :
    u.cfg = s.cfg ∧ u.rst = s.rst ∧ u.schedule = s.schedule ∧ u.draws = s.draws ∧ u.port = s.port ∧
      u.pend = s.pend ∧ u.cmd = s.cmd ∧ u.done = s.done ∧ u.err = s.err ∧ u.ecode = s.ecode ∧ u.errcmd = s.errcmd ∧
      u.ovr = s.ovr ∧ u.keyHi = s.keyHi ∧ u.keyLo = s.keyLo ∧ u.klen = s.klen := by
  rw [h.frame]
  simp

theorem State.setPadres_ok (s : State) {p : Nat} (h1 : 1 ≤ p) (h8 : p ≤ 8) : (s.setPadres p).padresOk := by
  refine .inr ?_
  simp only [State.setPadres_plen, State.setPadres_vcnt, BitVec.toNat_ofNat]
  omega

section
variable {s : State}

theorem execKeyexp_of_valid (h : s.keyValid) :
    execKeyexp s = .next (s.setRoundKeys (keySchedule s.masterKey)).finish := if_pos h

theorem execKeyexp_of_invalid (h : ¬ s.keyValid) : execKeyexp s = .next (s.fail .keyLength) := if_neg h

theorem execUnpadblk_of_some {p : Nat} (h : padCheck (blockByte s.block) 8 = some p) :
    execUnpadblk s = .next (s.setPadres p).finish := by
  simp [execUnpadblk, h]

theorem execUnpadblk_of_none (h : padCheck (blockByte s.block) 8 = none) :
    execUnpadblk s = .next (s.clearPadres.fail .padding) := by
  simp [execUnpadblk, h]

theorem execEncmsg_of_invalid (h : ¬ s.keyValid) : execEncmsg s = .next (s.fail .keyLength) := by
  simp [execEncmsg, h]

theorem execEncmsg_of_long (hk : s.keyValid) (h : s.cfg.bufBytes ≤ s.msglen.toNat) :
    execEncmsg s = .next (s.fail .messageLength) := by
  simp [execEncmsg, hk, h]

/-- BUF after a successful ENCMSG. -/
def State.encryptedBuf (s : State) : Memory :=
  (s.paddedBuf s.msglen.toNat).mapBlocks s.draws (encrypt (keySchedule s.masterKey)) (s.msglen.toNat / 8 + 1)

theorem execEncmsg_of_ok (hk : s.keyValid) (h : s.msglen.toNat < s.cfg.bufBytes) :
    execEncmsg s = .next (((s.setRoundKeys (keySchedule s.masterKey)).setBuf s.encryptedBuf).setMsglen
      (8 * (s.msglen.toNat / 8) + 8)).finish := by
  have h8 : (8 * (s.msglen.toNat / 8) + 8) / 8 = s.msglen.toNat / 8 + 1 := by omega
  simp [execEncmsg, hk, Nat.not_le.mpr h, add_padLength, h8, State.encryptedBuf]

theorem execDecmsg_of_length (h : s.msglen.toNat % 8 ≠ 0) : execDecmsg s = .next (s.fail .ciphertextLength) := by
  simp [execDecmsg, h]

theorem execDecmsg_of_long (h8 : s.msglen.toNat % 8 = 0) (h : s.cfg.bufBytes < s.msglen.toNat) :
    execDecmsg s = .next (s.fail .messageLength) := by
  simp [execDecmsg, h8, h]

theorem execDecmsg_of_invalid (h8 : s.msglen.toNat % 8 = 0) (h : s.msglen.toNat ≤ s.cfg.bufBytes)
    (hk : ¬ s.keyValid) : execDecmsg s = .next (s.fail .keyLength) := by
  simp [execDecmsg, h8, Nat.not_lt.mpr h, hk]

/-- BUF after the decryption loop of DECMSG. -/
def State.decryptedBuf (s : State) : Memory :=
  s.buf.mapBlocks s.draws (decrypt (keySchedule s.masterKey)) (s.msglen.toNat / 8)

theorem execDecmsg_of_some (h8 : s.msglen.toNat % 8 = 0) (h : s.msglen.toNat ≤ s.cfg.bufBytes) (hk : s.keyValid)
    {p : Nat} (hp : padCheck (s.decryptedBuf.read s.draws) s.msglen.toNat = some p) :
    execDecmsg s = .next ((((s.setRoundKeys (keySchedule s.masterKey)).setBuf s.decryptedBuf).setMsglen
      (s.msglen.toNat - p)).setPadres p).finish := by
  rw [State.decryptedBuf] at hp
  simp [execDecmsg, h8, Nat.not_lt.mpr h, hk, hp, State.decryptedBuf]

theorem execDecmsg_of_none (h8 : s.msglen.toNat % 8 = 0) (h : s.msglen.toNat ≤ s.cfg.bufBytes) (hk : s.keyValid)
    (hp : padCheck (s.decryptedBuf.read s.draws) s.msglen.toNat = none) :
    execDecmsg s = .next (((s.setRoundKeys (keySchedule s.masterKey)).setBuf
      (s.decryptedBuf.fill 0 s.msglen.toNat 0)).clearPadres.fail .padding) := by
  rw [State.decryptedBuf] at hp
  simp [execDecmsg, h8, Nat.not_lt.mpr h, hk, hp, State.decryptedBuf]

/-- The four ways DECMSG ends. -/
theorem execDecmsg_cases (s : State) :
    (s.msglen.toNat % 8 ≠ 0) ∨
    (s.msglen.toNat % 8 = 0 ∧ s.cfg.bufBytes < s.msglen.toNat) ∨
    (s.msglen.toNat % 8 = 0 ∧ s.msglen.toNat ≤ s.cfg.bufBytes ∧ ¬ s.keyValid) ∨
    (s.msglen.toNat % 8 = 0 ∧ s.msglen.toNat ≤ s.cfg.bufBytes ∧ s.keyValid) := by
  have := Nat.lt_or_ge s.cfg.bufBytes s.msglen.toNat
  tauto

end

/-! ### The buffer of the message commands -/

section
variable (s : State) (j : Nat)

/-- A byte of BUF after the pad loop: the message, then the pad bytes, then what was there. -/
theorem State.read_paddedBuf (n : Nat) :
    (s.paddedBuf n).read s.draws j =
      if n ≤ j ∧ j < n + padLength n then BitVec.ofNat 8 (padLength n) else s.bufByte j :=
  Memory.read_fill _ _ _ _ _ _

/-- A byte of BUF after ENCMSG. -/
theorem State.read_encryptedBuf :
    s.encryptedBuf.read s.draws j =
      if j < 8 * (s.msglen.toNat / 8) + 8 then
        blockByte (encrypt (keySchedule s.masterKey)
          ((s.paddedBuf s.msglen.toNat).readBlock s.draws (j / 8))) (j % 8)
      else s.bufByte j := by
  rw [State.encryptedBuf, Memory.read_mapBlocks, State.read_paddedBuf, add_padLength]
  split_ifs <;> first | rfl | omega

/-- A byte of BUF after DECMSG's decryption loop. -/
theorem State.read_decryptedBuf :
    s.decryptedBuf.read s.draws j =
      if j < 8 * (s.msglen.toNat / 8) then
        blockByte (decrypt (keySchedule s.masterKey) (s.buf.readBlock s.draws (j / 8))) (j % 8)
      else s.bufByte j :=
  Memory.read_mapBlocks _ _ _ _ _

/-- The padded message as a byte string and as BUF after the pad loop (46_message.md R260, R262). -/
theorem State.pad_message_getD (n : Nat) (hj : j < n + padLength n) :
    (pad (s.message n)).getD j 0 = (s.paddedBuf n).read s.draws j := by
  rw [pad_getD, State.message_length, State.read_paddedBuf]
  split_ifs <;> first | omega | rfl | (rw [State.message_getD _ (by assumption)])

/-- The decrypted string and BUF after DECMSG's decryption loop (46_message.md R260, R264). -/
theorem State.decrypted_message_getD (hj : j < 8 * (s.msglen.toNat / 8)) :
    (mapChunks (decrypt (keySchedule s.masterKey)) (s.message s.msglen.toNat)).getD j 0 =
      s.decryptedBuf.read s.draws j := by
  rw [mapChunks_getD _ _ (by rw [State.message_length]; exact hj), State.read_decryptedBuf, if_pos hj]
  congr 2
  exact blockOf_congr fun i hi => State.message_getD s (by omega)

end

/-! ### Every command -/

/-- Every command makes its writes and then finishes, or fails with a code other than the reserved BLOCK_LENGTH. -/
theorem exec_cases (i : Instr) (s : State) :
    ∃ u, Effect s u ∧ (exec i s = .next u.finish ∨ ∃ e, e ≠ .blockLength ∧ exec i s = .next (u.fail e)) := by
  have failed : ∀ e : ErrCode, e ≠ .blockLength → exec i s = .next (s.fail e) →
      ∃ u, Effect s u ∧ (exec i s = .next u.finish ∨ ∃ e, e ≠ .blockLength ∧ exec i s = .next (u.fail e)) :=
    fun e he h => ⟨s, Effect.refl s, .inr ⟨e, he, h⟩⟩
  cases i with
  | nop => exact ⟨s, Effect.refl s, .inl rfl⟩
  | encblk => exact ⟨s.setBlock (encrypt s.rk s.block), ⟨rfl, id, fun _ => id, id⟩, .inl rfl⟩
  | decblk => exact ⟨s.setBlock (decrypt s.rk s.block), ⟨rfl, id, fun _ => id, id⟩, .inl rfl⟩
  | feval n => exact ⟨s.setFout (roundF s.fin s.fkey n), ⟨rfl, id, fun _ => id, id⟩, .inl rfl⟩
  | padblk c => exact ⟨s.setBlock (padBlock c s.block), ⟨rfl, id, fun _ => id, id⟩, .inl rfl⟩
  | keyexp =>
    by_cases hk : s.keyValid
    · exact ⟨s.setRoundKeys (keySchedule s.masterKey), ⟨rfl, id, fun _ => id, id⟩, .inl (execKeyexp_of_valid hk)⟩
    · exact failed _ (by decide) (execKeyexp_of_invalid hk)
  | unpadblk =>
    cases hp : padCheck (blockByte s.block) 8 with
    | some p =>
      obtain ⟨-, -, h1, h8, -⟩ := padCheck_eq_some.mp hp
      exact ⟨s.setPadres p, ⟨rfl, id, fun _ => id, fun _ => s.setPadres_ok h1 h8⟩, .inl (execUnpadblk_of_some hp)⟩
    | none =>
      exact ⟨s.clearPadres, ⟨rfl, id, fun _ => id, fun _ => .inl ⟨rfl, rfl⟩⟩,
        .inr ⟨.padding, by decide, execUnpadblk_of_none hp⟩⟩
  | encmsg =>
    by_cases hk : s.keyValid
    · by_cases hn : s.msglen.toNat < s.cfg.bufBytes
      · refine ⟨((s.setRoundKeys (keySchedule s.masterKey)).setBuf s.encryptedBuf).setMsglen
          (8 * (s.msglen.toNat / 8) + 8), ⟨rfl, fun h => ?_, fun hc h => ?_, id⟩, .inl (execEncmsg_of_ok hk hn)⟩
        · exact Memory.wf_mapBlocks _ _ (Memory.wf_fill h _ _ _) _
        · have h8 := hc.1
          have hP := add_padLength s.msglen.toNat
          exact Memory.below_mapBlocks _ _ (Memory.below_fill h (by omega) _) (by omega)
      · exact failed _ (by decide) (execEncmsg_of_long hk (by omega))
    · exact failed _ (by decide) (execEncmsg_of_invalid hk)
  | decmsg =>
    rcases execDecmsg_cases s with h8 | ⟨h8, hn⟩ | ⟨h8, hn, hk⟩ | ⟨h8, hn, hk⟩
    · exact failed _ (by decide) (execDecmsg_of_length h8)
    · exact failed _ (by decide) (execDecmsg_of_long h8 hn)
    · exact failed _ (by decide) (execDecmsg_of_invalid h8 hn hk)
    · have wf : s.buf.wf → s.decryptedBuf.wf := fun h => Memory.wf_mapBlocks _ _ h _
      have below : s.buf.below s.cfg.bufBytes → s.decryptedBuf.below s.cfg.bufBytes :=
        fun h => Memory.below_mapBlocks _ _ h (by omega)
      cases hp : padCheck (s.decryptedBuf.read s.draws) s.msglen.toNat with
      | some p =>
        obtain ⟨-, -, h1, h8', -⟩ := padCheck_eq_some.mp hp
        exact ⟨(((s.setRoundKeys (keySchedule s.masterKey)).setBuf s.decryptedBuf).setMsglen
          (s.msglen.toNat - p)).setPadres p, ⟨rfl, wf, fun _ => below, fun _ => State.setPadres_ok _ h1 h8'⟩,
          .inl (execDecmsg_of_some h8 hn hk hp)⟩
      | none =>
        exact ⟨((s.setRoundKeys (keySchedule s.masterKey)).setBuf
          (s.decryptedBuf.fill 0 s.msglen.toNat 0)).clearPadres,
          ⟨rfl, fun h => Memory.wf_fill (wf h) _ _ _, fun _ h => Memory.below_fill (below h) (by omega) _,
          fun _ => .inl ⟨rfl, rfl⟩⟩, .inr ⟨.padding, by decide, execDecmsg_of_none h8 hn hk hp⟩⟩

end Sys2Proof.Machine
end

