-- ==== Sys2Proof/Laws/Feistel.lean ====
section
/-! SUPPORT. One round undoes the other, whatever F is (45_feistel.md R243). -/

namespace Sys2Proof.Machine

section
variable (rk : RoundKeys) (b : Block) (n : Nat)

@[simp] theorem decRound_encRound : decRound rk (encRound rk b n) n = b := by
  simp [decRound, encRound]

@[simp] theorem encRound_decRound : encRound rk (decRound rk b n) n = b := by
  simp [decRound, encRound]

end

/-- Rounds undone in reverse order, for any list of rounds. -/
theorem foldl_decRound_encRound (rk : RoundKeys) (ns : List Nat) (b : Block) :
    ns.reverse.foldl (decRound rk) (ns.foldl (encRound rk) b) = b := by
  induction ns generalizing b with
  | nil => rfl
  | cons n ns ih => simp [List.foldl_append, ih]

theorem decrypt_encrypt (rk : RoundKeys) (b : Block) : decrypt rk (encrypt rk b) = b := by
  simp [decrypt, encrypt]

theorem encrypt_decrypt (rk : RoundKeys) (b : Block) : encrypt rk (decrypt rk b) = b := by
  simp [decrypt, encrypt]

end Sys2Proof.Machine
end

