-- ==== Sys2Proof/Laws/HostPort.lean ====
section
/-! SUPPORT. What an address names (20_memory.md R80, 10_state.md R32) and what a host transaction can do. -/

namespace Sys2Proof.Machine

@[simp] theorem Reg.ofOffset_offset (r : Reg) : Reg.ofOffset r.offset.toNat = some r := by cases r <;> rfl

theorem Reg.ofOffset_eq_some {n : Nat} {r : Reg} (h : Reg.ofOffset n = some r) : n = r.offset.toNat := by
  unfold Reg.ofOffset at h
  split at h <;> first | (cases h; rfl) | cases h

theorem Reg.offset_lt (r : Reg) : r.offset.toNat < 0x50 := by cases r <;> decide

theorem Reg.offset_mod (r : Reg) : r.offset.toNat % 4 = 0 := by cases r <;> decide

/-- A register is at its offset and nowhere else. -/
theorem target_eq_reg {c : Config} {a : HostAddr} {r : Reg} : target c a = some (.reg r) ↔ a = r.offset := by
  constructor
  · intro h
    unfold target at h
    split_ifs at h
    · simp at h
    · cases hr : Reg.ofOffset a.toNat with
      | none => simp [hr] at h
      | some q =>
        simp only [hr, Option.map_some, Option.some.injEq, Target.reg.injEq] at h
        subst h
        exact BitVec.eq_of_toNat_eq (Reg.ofOffset_eq_some hr)
  · rintro rfl
    have h1 := r.offset_lt
    have h2 := r.offset_mod
    unfold target bufBase
    rw [if_neg (by omega), if_neg (by omega)]
    simp

@[simp] theorem target_offset (c : Config) (r : Reg) : target c r.offset = some (.reg r) := target_eq_reg.mpr rfl

/-- The BUF window is at 0x1000 .. 0x1000 + BUF_BYTES - 1, at aligned addresses. -/
theorem target_eq_window {c : Config} {a : HostAddr} {o : Nat} :
    target c a = some (.window o) ↔ a.toNat % 4 = 0 ∧ o < c.bufBytes ∧ a.toNat = bufBase + o := by
  unfold target
  split_ifs with h1 h2
  · simp [h1]
  · simp only [Option.some.injEq, Target.window.injEq]
    omega
  · cases hr : Reg.ofOffset a.toNat with
    | none => simp; omega
    | some q => simp; omega

/-- An address names nothing where it is misaligned or unmapped (20_memory.md R90). -/
theorem target_eq_none {c : Config} {a : HostAddr} (h : target c a = none) (ha : a.toNat % 4 = 0) :
    0x50 ≤ a.toNat ∧ ¬ (bufBase ≤ a.toNat ∧ a.toNat < bufBase + c.bufBytes) := by
  unfold target at h
  split_ifs at h with h1 h2
  · exact absurd ha h1
  · refine ⟨?_, h2⟩
    by_contra hlt
    have key : ∀ n < 0x50, n % 4 = 0 → Reg.ofOffset n ≠ none := by decide
    exact key _ (Nat.not_le.mp hlt) ha (by simpa using h)

/-- The three ways a host write ends (20_memory.md R89). -/
theorem State.hostWrite_cases (s : State) (a : HostAddr) (v : Word) :
    (target s.cfg a = none ∧ s.hostWrite a v = (s, .slverr)) ∨
    (∃ g, target s.cfg a = some g ∧ g.isInput = true ∧ s.busy = true ∧ s.hostWrite a v = (s.setOvr, .okay)) ∨
    (∃ g, target s.cfg a = some g ∧ ¬ (g.isInput = true ∧ s.busy = true) ∧
      s.hostWrite a v = (s.storeTarget v g, .okay)) := by
  unfold State.hostWrite
  cases hg : target s.cfg a with
  | none => exact .inl ⟨rfl, rfl⟩
  | some g =>
    by_cases hb : g.isInput = true ∧ s.busy = true
    · exact .inr (.inl ⟨g, rfl, hb.1, hb.2, if_pos hb⟩)
    · exact .inr (.inr ⟨g, rfl, hb, if_neg hb⟩)

/-- A write to a register that is performed (20_memory.md R89). -/
theorem State.hostWrite_reg (s : State) (r : Reg) (v : Word) (h : ¬ ((Target.reg r).isInput = true ∧ s.busy = true)) :
    s.hostWrite r.offset v = (s.storeTarget v (.reg r), .okay) := by
  simp [State.hostWrite, h]

/-- A read of a register that gives its value (20_memory.md R88). -/
theorem State.hostRead_reg (s : State) (r : Reg) (h : ¬ ((Target.reg r).isResult = true ∧ s.busy = true)) :
    s.hostRead r.offset = (s.regValue r, .okay) := by
  simp [State.hostRead, h, State.targetValue]

/-! ### What a write that is performed can change -/

section
variable (s : State) (v : Word) (g : Target)

/-- No write changes BUF_BYTES, the reset input, the schedule, the draw counter or the port's answer. -/
theorem State.storeTarget_frame :
    (s.storeTarget v g).cfg = s.cfg ∧ (s.storeTarget v g).rst = s.rst ∧ (s.storeTarget v g).schedule = s.schedule ∧
      (s.storeTarget v g).draws = s.draws ∧ (s.storeTarget v g).port = s.port := by
  cases g with
  | window o => exact ⟨rfl, rfl, rfl, rfl, rfl⟩
  | reg r =>
    cases r with
    | ctrl => simp only [State.storeTarget, State.writeCtrl]; split_ifs <;> exact ⟨rfl, rfl, rfl, rfl, rfl⟩
    | status => simp only [State.storeTarget, State.writeStatus]; split_ifs <;> exact ⟨rfl, rfl, rfl, rfl, rfl⟩
    | _ => exact ⟨rfl, rfl, rfl, rfl, rfl⟩

/-- OVR changes only by an acknowledgement or a soft reset (10_state.md R37, R36). -/
theorem State.storeTarget_ovr_cases :
    (s.storeTarget v g).ovr = s.ovr ∨
    (g = .reg .status ∧ v[3] = true ∧ (s.storeTarget v g).ovr = false) ∨
    (g = .reg .ctrl ∧ v[31] = true ∧ s.storeTarget v g = s.clear) := by
  cases g with
  | window o => exact .inl rfl
  | reg r =>
    cases r with
    | ctrl => simp only [State.storeTarget, State.writeCtrl]; split_ifs with h <;> simp [h]
    | status => simp only [State.storeTarget, State.writeStatus]; split_ifs with h <;> simp [h]
    | _ => exact .inl rfl

/-- DONE changes only by an acknowledgement, an acceptance or a soft reset (10_state.md R39). -/
theorem State.storeTarget_done_cases :
    (s.storeTarget v g).done = s.done ∨
    (g = .reg .status ∧ v[1] = true ∧ (s.storeTarget v g).done = false) ∨
    (g = .reg .cmd ∧ s.storeTarget v g = s.accept v) ∨
    (g = .reg .ctrl ∧ v[31] = true ∧ s.storeTarget v g = s.clear) := by
  cases g with
  | window o => exact .inl rfl
  | reg r =>
    cases r with
    | ctrl => simp only [State.storeTarget, State.writeCtrl]; split_ifs with h <;> simp [h]
    | status =>
      simp only [State.storeTarget, State.writeStatus]
      by_cases hv : v[1] = true <;> split_ifs <;> simp_all
    | cmd => exact .inr (.inr (.inl ⟨rfl, rfl⟩))
    | _ => exact .inl rfl

/-- ERR, ECODE and ERRCMD change only by an acknowledgement or a soft reset (10_state.md R40, R42, R44). -/
theorem State.storeTarget_err_cases :
    ((s.storeTarget v g).err = s.err ∧ (s.storeTarget v g).ecode = s.ecode ∧
      (s.storeTarget v g).errcmd = s.errcmd) ∨
    (g = .reg .status ∧ v[2] = true ∧ (s.storeTarget v g).err = false ∧ (s.storeTarget v g).ecode = 0 ∧
      (s.storeTarget v g).errcmd = 0) ∨
    (g = .reg .ctrl ∧ v[31] = true ∧ s.storeTarget v g = s.clear) := by
  cases g with
  | window o => exact .inl ⟨rfl, rfl, rfl⟩
  | reg r =>
    cases r with
    | ctrl => simp only [State.storeTarget, State.writeCtrl]; split_ifs with h <;> simp [h]
    | status => simp only [State.storeTarget, State.writeStatus]; split_ifs with h h2 h3 <;> simp_all
    | _ => exact .inl ⟨rfl, rfl, rfl⟩

/-- PEND changes only by an acceptance or a soft reset (40_command_cycle.md R140). -/
theorem State.storeTarget_pend_cases :
    (s.storeTarget v g).pend = s.pend ∨
    (g = .reg .cmd ∧ s.storeTarget v g = s.accept v) ∨
    (g = .reg .ctrl ∧ v[31] = true ∧ s.storeTarget v g = s.clear) := by
  cases g with
  | window o => exact .inl rfl
  | reg r =>
    cases r with
    | ctrl => simp only [State.storeTarget, State.writeCtrl]; split_ifs with h <;> simp [h]
    | status => simp only [State.storeTarget, State.writeStatus]; split_ifs <;> simp
    | cmd => exact .inr (.inl ⟨rfl, rfl⟩)
    | _ => exact .inl rfl

/-- KEY_HI, KEY_LO and KLEN change only by a write to them or a soft reset (10_state.md R45, R47). -/
theorem State.storeTarget_key_cases :
    ((s.storeTarget v g).keyHi = s.keyHi ∨ (g = .reg .keyHi ∧ (s.storeTarget v g).keyHi = v) ∨
      (g = .reg .ctrl ∧ v[31] = true)) ∧
    ((s.storeTarget v g).keyLo = s.keyLo ∨ (g = .reg .keyLo ∧ (s.storeTarget v g).keyLo = v) ∨
      (g = .reg .ctrl ∧ v[31] = true)) ∧
    ((s.storeTarget v g).klen = s.klen ∨ g = .reg .keylen ∨ (g = .reg .ctrl ∧ v[31] = true)) := by
  cases g with
  | window o => exact ⟨.inl rfl, .inl rfl, .inl rfl⟩
  | reg r =>
    cases r with
    | ctrl => simp only [State.storeTarget, State.writeCtrl]; split_ifs with h <;> simp [h]
    | status => simp only [State.storeTarget, State.writeStatus]; split_ifs <;> simp
    | keyHi => exact ⟨.inr (.inl ⟨rfl, rfl⟩), .inl rfl, .inl rfl⟩
    | keyLo => exact ⟨.inl rfl, .inr (.inl ⟨rfl, rfl⟩), .inl rfl⟩
    | keylen => exact ⟨.inl rfl, .inl rfl, .inr (.inl rfl)⟩
    | _ => exact ⟨.inl rfl, .inl rfl, .inl rfl⟩

end

/-! ### The bits of STATUS and CTRL as the host reads them (10_state.md R35, R37) -/

section
variable (s : State)

@[simp] theorem State.statusWord_busy : s.statusWord[0] = s.busy := by simp [State.statusWord, flagBit]
@[simp] theorem State.statusWord_done : s.statusWord[1] = s.done := by simp [State.statusWord, flagBit]
@[simp] theorem State.statusWord_err : s.statusWord[2] = s.err := by simp [State.statusWord, flagBit]
@[simp] theorem State.statusWord_ovr : s.statusWord[3] = s.ovr := by simp [State.statusWord, flagBit]
@[simp] theorem State.ctrlWord_ieDone : s.ctrlWord[0] = s.ieDone := by simp [State.ctrlWord, flagBit]
@[simp] theorem State.ctrlWord_ieErr : s.ctrlWord[1] = s.ieErr := by simp [State.ctrlWord, flagBit]
@[simp] theorem State.ctrlWord_ieOvr : s.ctrlWord[2] = s.ieOvr := by simp [State.ctrlWord, flagBit]

end

end Sys2Proof.Machine
end

