-- ==== Sys2Proof/Laws/HostAsm.lean ====
section
/-! SUPPORT. What a host program's operations are and what one slot of its run can do (30_encoding.md R124). -/

namespace Sys2Proof.Machine

/-! ### Expansions -/

/-- `BUF+o` has an address exactly where 0x1000 + o is a 16-bit number, and that number is the address. -/
theorem bufAddr_eq_some {o : Nat} {a : HostAddr} : bufAddr o = some a ↔ a.toNat = bufBase + o := by
  unfold bufAddr
  split_ifs with h
  · rw [Option.some.injEq]
    constructor
    · rintro rfl
      simp only [BitVec.toNat_ofNat]
      omega
    · intro ha
      apply BitVec.eq_of_toNat_eq
      simp only [BitVec.toNat_ofNat]
      omega
  · have := a.isLt
    simp
    omega

theorem bufAddr_eq_none {o : Nat} : bufAddr o = none ↔ 2 ^ 16 ≤ bufBase + o := by
  simp [bufAddr]

/-- `run <cmd>` is the write of the command's word, then the loop of `wait`. -/
theorem run_ops {i : Instr} {w : Word} (h : assemble i = some w) :
    (HostStmt.run i).ops = some [wrReg .cmd w, .waitIdle] := by
  simp [HostStmt.ops, issueOps, h]

/-! ### Slots -/

/-- A step whose event is e performs it with free values of its own; the events still to come stay. -/
theorem State.stepEvent_eq (s : State) (e : Event) : s.stepEvent e = perform e { s with draws := s.draws + 1 } := rfl

section
variable {s : State} {ops : List HostOp}

/-- The host's slot performs the transaction of its next operation. -/
theorem HostRun.slot_host {op : HostOp} (hr : s.rst = false) :
    (HostRun.mk (op :: ops) s).slot .host =
      .next (HostRun.mk (op.next ops (({ s with draws := s.draws + 1 } : State).transact op.transaction))
        (({ s with draws := s.draws + 1 } : State).transact op.transaction)) := by
  simp [HostRun.slot, State.stepEvent_eq, perform, hostTurn, hr, HostRun.resume]

/-- The loop of `wait`: a read of STATUS, after which the host goes on exactly where BUSY = 0. -/
theorem HostRun.slot_wait (hr : s.rst = false) :
    (HostRun.mk (.waitIdle :: ops) s).slot .host =
      .next (HostRun.mk (if s.busy then .waitIdle :: ops else ops)
        (({ s with draws := s.draws + 1 } : State).answer (.read s.statusWord .okay))) := by
  have hrd : ({ s with draws := s.draws + 1 } : State).hostRead Reg.status.offset = (s.statusWord, .okay) :=
    State.hostRead_reg _ .status (by simp [Target.isResult])
  rw [HostRun.slot_host hr]
  simp only [HostOp.transaction, HostOp.next, State.transact, hrd, State.readIdle, State.answer_port,
    State.statusWord_busy]
  cases s.busy <;> rfl

/-- The engine's slot with nothing pending changes no register. -/
theorem HostRun.slot_engine_idle (hr : s.rst = false) (hp : s.pend = none) :
    (HostRun.mk ops s).slot .engine = .next (HostRun.mk ops { s with draws := s.draws + 1 }) := by
  simp [HostRun.slot, State.stepEvent_eq, perform, engineTurn, hr, hp, HostRun.resume]

/-- The engine's turn performs the pending command (40_command_cycle.md R143). -/
theorem engineTurn_pending {w : Word} {i : Instr} (hr : s.rst = false) (hp : s.pend = some w)
    (hd : decode w = .ok i) : engineTurn s = exec i s := by
  simp [engineTurn, hr, hp, runCommand, hd]

/-- The engine's slot with a command pending performs it; the host's operations stay. -/
theorem HostRun.slot_engine_pending {w : Word} {i : Instr} {t : State} (hr : s.rst = false) (hp : s.pend = some w)
    (hd : decode w = .ok i) (ht : exec i { s with draws := s.draws + 1 } = .next t) :
    (HostRun.mk ops s).slot .engine = .next (HostRun.mk ops t) := by
  have h : s.stepEvent .engine = .next t := (engineTurn_pending (s := { s with draws := s.draws + 1 }) hr hp hd).trans ht
  simp [HostRun.slot, h, HostRun.resume]

end

/-! ### Runs -/

section
variable {r r' : HostRun} {cs ds : List Slot}

@[simp] theorem HostRun.run_nil : HostRun.run [] r = .next r := rfl

/-- A run whose first slot answers a next state goes on from it. -/
theorem HostRun.run_cons {c : Slot} (h : r.slot c = .next r') : HostRun.run (c :: cs) r = HostRun.run cs r' := by
  simp [HostRun.run, h]

/-- Runs compose. -/
theorem HostRun.run_append (h : HostRun.run cs r = .next r') :
    HostRun.run (cs ++ ds) r = HostRun.run ds r' := by
  induction cs generalizing r with
  | nil =>
    cases h
    rfl
  | cons c cs ih =>
    cases hc : r.slot c with
    | next q =>
      rw [HostRun.run_cons hc] at h
      rw [List.cons_append, HostRun.run_cons hc]
      exact ih h
    | fault e => simp [HostRun.run, hc] at h
    | refused e => simp [HostRun.run, hc] at h

/-- An invariant of the slots that answer next states is one of the runs. -/
theorem HostRun.run_induction {P : HostRun → Prop} (step : ∀ q c, P q → ∃ q', q.slot c = .next q' ∧ P q')
    (h : P r) : ∃ q, HostRun.run cs r = .next q ∧ P q := by
  induction cs generalizing r with
  | nil => exact ⟨r, rfl, h⟩
  | cons c cs ih =>
    obtain ⟨q, hq, hP⟩ := step r c h
    rw [HostRun.run_cons hq]
    exact ih hP

end

end Sys2Proof.Machine
end

