-- ==== Sys2Proof/Laws/PerInstr.lean ====
section
/-! SUPPORT. Families of statements made once per instruction. OpcodeField: the opcode of a command's word is the one
of the map of 30_encoding.md R116, and no bit above its operand field is set (R112 to R114). -/

namespace Sys2Proof.Laws.OpcodeField

/-- The low byte of the command's word is its opcode and w[31:13] is 0. -/
def Statement (i : Instr) : Prop :=
  i.wf = true → (encode i).extractLsb' 0 8 = i.opc ∧ (encode i).extractLsb' 13 19 = 0

theorem nop : Statement .nop := fun _ => by decide

theorem keyexp : Statement .keyexp := fun _ => by decide

theorem encblk : Statement .encblk := fun _ => by decide

theorem decblk : Statement .decblk := fun _ => by decide

theorem feval (n : Nat) : Statement (.feval n) := fun h => by
  have hn : 1 ≤ n ∧ n ≤ 31 := by simpa [Instr.wf] using h
  have key : ∀ k : Fin 32, (encode (.feval k)).extractLsb' 0 8 = 0x04 ∧ (encode (.feval k)).extractLsb' 13 19 = 0 := by
    decide
  exact key ⟨n, by omega⟩

theorem padblk (c : Nat) : Statement (.padblk c) := fun h => by
  have hc : c ≤ 7 := by simpa [Instr.wf] using h
  have key : ∀ k : Fin 8, (encode (.padblk k)).extractLsb' 0 8 = 0x05 ∧ (encode (.padblk k)).extractLsb' 13 19 = 0 := by
    decide
  exact key ⟨c, by omega⟩

theorem unpadblk : Statement .unpadblk := fun _ => by decide

theorem encmsg : Statement .encmsg := fun _ => by decide

theorem decmsg : Statement .decmsg := fun _ => by decide

end Sys2Proof.Laws.OpcodeField
end

