-- ==== Sys2Proof/Laws/Step.lean ====
section
/-! SUPPORT. What one step can do, said once (40_command_cycle.md R140, 20_memory.md R98). -/

namespace Sys2Proof.Machine

section
variable {s t : State}

/-- A step that answers a next state is a host transaction, an engine's turn without effect, an engine step on a word
that decodes or on one that does not, or an edge of the reset input. -/
theorem step_cases (h : step s = .next t) :
    (∃ x, s.nextEvent = .host x ∧ s.rst = false ∧ t = s.slot.transact x) ∨
    (s.nextEvent = .engine ∧ (s.rst = true ∨ s.pend = none) ∧ t = s.slot) ∨
    (∃ w i, s.nextEvent = .engine ∧ s.rst = false ∧ s.pend = some w ∧ decode w = .ok i ∧ exec i s.slot = .next t) ∨
    (∃ w e, s.nextEvent = .engine ∧ s.rst = false ∧ s.pend = some w ∧ decode w = .error e ∧
      t = s.slot.fail .illegalCommand) ∨
    (s.nextEvent = .assertReset ∧ t = s.slot.assertReset) ∨
    (s.nextEvent = .releaseReset ∧ t = s.slot.releaseReset) := by
  unfold step at h
  cases he : s.nextEvent with
  | host x =>
    cases hr : s.rst with
    | true => simp [he, perform, hostTurn, hr] at h
    | false =>
      simp only [he, perform, hostTurn, State.slot_rst, hr, Bool.false_eq_true, if_false] at h
      cases h
      exact .inl ⟨x, rfl, rfl, rfl⟩
  | engine =>
    cases hr : s.rst with
    | true =>
      simp only [he, perform, engineTurn, State.slot_rst, hr, if_true] at h
      cases h
      exact .inr (.inl ⟨rfl, .inl rfl, rfl⟩)
    | false =>
      simp only [he, perform, engineTurn, State.slot_rst, State.slot_pend, hr, Bool.false_eq_true, if_false] at h
      cases hp : s.pend with
      | none =>
        simp only [hp] at h
        cases h
        exact .inr (.inl ⟨rfl, .inr rfl, rfl⟩)
      | some w =>
        simp only [hp, runCommand] at h
        cases hd : decode w with
        | ok i =>
          simp only [hd] at h
          exact .inr (.inr (.inl ⟨w, i, rfl, rfl, rfl, hd, h⟩))
        | error e =>
          simp only [hd] at h
          cases h
          exact .inr (.inr (.inr (.inl ⟨w, e, rfl, rfl, rfl, hd, rfl⟩)))
  | assertReset =>
    simp only [he, perform] at h
    cases h
    exact .inr (.inr (.inr (.inr (.inl ⟨rfl, rfl⟩))))
  | releaseReset =>
    simp only [he, perform] at h
    cases h
    exact .inr (.inr (.inr (.inr (.inr ⟨rfl, rfl⟩))))

/-- An engine step that answers a next state made a command's writes and then finished or failed, with PEND as the
failing word. -/
theorem engine_cases {w : Word} (he : s.nextEvent = .engine) (hr : s.rst = false) (hp : s.pend = some w)
    (h : step s = .next t) :
    ∃ u, Effect s.slot u ∧ (t = u.finish ∨ ∃ e, e ≠ .blockLength ∧ t = u.fail e) := by
  rcases step_cases h with ⟨x, hx, -⟩ | ⟨-, h1 | h1, -⟩ | ⟨w', i, -, -, -, -, hx⟩ | ⟨w', e, -, -, -, -, rfl⟩ |
      ⟨hx, -⟩ | ⟨hx, -⟩
  · rw [he] at hx; cases hx
  · rw [hr] at h1; cases h1
  · rw [hp] at h1; cases h1
  · obtain ⟨u, hu, hx' | ⟨e, hne, hx'⟩⟩ := exec_cases i s.slot
    · rw [hx] at hx'
      cases hx'
      exact ⟨u, hu, .inl rfl⟩
    · rw [hx] at hx'
      cases hx'
      exact ⟨u, hu, .inr ⟨e, hne, rfl⟩⟩
  · exact ⟨s.slot, Effect.refl _, .inr ⟨_, by decide, rfl⟩⟩
  · rw [he] at hx; cases hx
  · rw [he] at hx; cases hx

end

/-! ### Runs -/

section
variable {s t : State}

/-- A step whose event is a host transaction performs it (20_memory.md R94). -/
theorem step_host {x : Txn} {es : List Event} (hr : s.rst = false) (h : s.schedule = .host x :: es) :
    step s = .next (s.slot.transact x) := by
  have hn : s.nextEvent = .host x := by simp [State.nextEvent, h]
  simp [step, hn, perform, hostTurn, hr]

/-- A run whose first step answers a next state goes on from it. -/
theorem run_succ {n : Nat} (h : step s = .next t) :
    Host.Core.run Sys2Proof.core (n + 1) s = Host.Core.run Sys2Proof.core n t := by
  have h' : Sys2Proof.core.step s = .next t := h
  simp only [Host.Core.run, h']

/-- Runs compose. -/
theorem run_add {n m : Nat} (h : Host.Core.run Sys2Proof.core n s = .next t) :
    Host.Core.run Sys2Proof.core (n + m) s = Host.Core.run Sys2Proof.core m t := by
  induction n generalizing s with
  | zero =>
    simp only [Host.Core.run] at h
    cases h
    simp
  | succ n ih =>
    rw [show n + 1 + m = (n + m) + 1 by omega]
    cases hs : step s with
    | next s' =>
      rw [run_succ hs] at h ⊢
      exact ih h
    | fault r =>
      have h' : Sys2Proof.core.step s = .fault r := hs
      simp only [Host.Core.run, h'] at h
      cases h
    | refused r =>
      have h' : Sys2Proof.core.step s = .refused r := hs
      simp only [Host.Core.run, h'] at h
      cases h

end

end Sys2Proof.Machine
end

