-- ==== Sys2Proof/Tests/Slice0.lean ====
section
/-! SUPPORT. Tests on single steps, their expected values from 95_test_vectors.md, and a witness for the hypotheses of
every statement that has some, each clause at a value of its boundary. -/

namespace Sys2Proof.Tests

open Sys2Proof Sys2Proof.Machine

/-! ### Well-formedness and decoding -/

/-- 30_encoding.md R123: an assembler refuses these operands. -/
theorem test_feval_zero_refused : (Instr.feval 0).wf = false ∧ assemble (.feval 0) = none := by decide
theorem test_feval_32_refused : (Instr.feval 32).wf = false ∧ assemble (.feval 32) = none := by decide
theorem test_padblk_8_refused : (Instr.padblk 8).wf = false ∧ assemble (.padblk 8) = none := by decide

/-- The words of the map of 30_encoding.md R116, bit by bit: w[31:8] = 0, RN in w[12:8], CNT in w[10:8]. -/
theorem test_decode_nop : decode 0b00000000_00000000_00000000_00000000 = .ok .nop := by decide
theorem test_decode_keyexp : decode 0b00000000_00000000_00000000_00000001 = .ok .keyexp := by decide
theorem test_decode_encblk : decode 0b00000000_00000000_00000000_00000010 = .ok .encblk := by decide
theorem test_decode_decblk : decode 0b00000000_00000000_00000000_00000011 = .ok .decblk := by decide
theorem test_decode_feval_21 : decode 0b00000000_00000000_00010101_00000100 = .ok (.feval 21) := by decide
theorem test_decode_feval_31 : decode 0b00000000_00000000_00011111_00000100 = .ok (.feval 31) := by decide
theorem test_decode_padblk_0 : decode 0b00000000_00000000_00000000_00000101 = .ok (.padblk 0) := by decide
theorem test_decode_padblk_6 : decode 0b00000000_00000000_00000110_00000101 = .ok (.padblk 6) := by decide
theorem test_decode_unpadblk : decode 0b00000000_00000000_00000000_00000110 = .ok .unpadblk := by decide
theorem test_decode_encmsg : decode 0b00000000_00000000_00000000_00000111 = .ok .encmsg := by decide
theorem test_decode_decmsg : decode 0b00000000_00000000_00000000_00001000 = .ok .decmsg := by decide

/-- Vectors W1 to W6, W8, W10 and W11: illegal words. -/
theorem test_decode_illegal :
    decode 0x00000009 = .error .opcode ∧ decode 0x000000FF = .error .opcode ∧
    decode 0x00000100 = .error .reservedBits ∧ decode 0x80000000 = .error .reservedBits ∧
    decode 0x00000004 = .error .roundZero ∧ decode 0x00002004 = .error .reservedBits ∧
    decode 0x00000805 = .error .reservedBits ∧ decode 0x00000106 = .error .reservedBits ∧
    decode 0x10000002 = .error .reservedBits := by decide

/-- The table numbers a command's bits as the word does; FEVAL's row with its operand zero is W5, an illegal word. -/
theorem test_decode_table_word :
    decodeTableWord 32 0x00000705 = some (.padblk 7) ∧ decodeTableWord 32 0x00000004 = none := by decide

/-! ### Small states -/

/-- Reset with the key K3 of 95_test_vectors.md loaded. -/
def keyed : State := { State.reset with keyHi := 0x01234567, keyLo := 0x89ABCDEF, klen := 8 }

/-- The round keys of K3. -/
def k3 : RoundKeys := { rk0 := 0xFEA6BEAB, rk1 := 0xADA9E865, rk2 := 0x1DBD6127, rk3 := 0x63D1DBA1 }

/-- The bytes of a message at offset 0 of BUF. -/
def bytes (l : List Byte) : Memory := l.zipIdx.map (fun (b, j) => (j, b))

/-- `keyed` with a message in BUF and its length in MSGLEN. -/
def withMessage (l : List Byte) : State := { keyed with buf := bytes l, msglen := BitVec.ofNat 32 l.length }

/-- The state of a step's answer where it answers one. -/
def after (o : Host.Outcome State Fault Refusal) : Option State :=
  match o with
  | .next t => some t
  | .fault _ => none
  | .refused _ => none

/-- The next step after the word is fetched: one engine step. -/
def stepOn (s : State) (w : Nat) : Option State := after (step (s.withFetchWord 32 w))

/-- "ABCDEFGH". -/
def abcdefgh : List Byte := [0x41, 0x42, 0x43, 0x44, 0x45, 0x46, 0x47, 0x48]

/-! ### One step of each command -/

/-- W12: NOP. -/
theorem test_nop : (stepOn State.reset 0).map (fun t => (t.statusWord, t.errcmd)) = some (0x00000002, 0) := by decide

/-- K3. -/
theorem test_keyexp : (stepOn keyed 1).map (fun t => (t.rk, t.statusWord)) = some (k3, 0x00000002) := by decide

/-- A key length of 9 (95_test_vectors.md 2.3). -/
theorem test_keyexp_key_length :
    (stepOn { keyed with klen := 9 } 1).map (fun t => (t.rk.rk0, t.statusWord, t.errcmd)) =
      some (0, 0x00000106, 1) := by decide

/-- B4. -/
theorem test_encblk :
    (stepOn { keyed with rk := k3, dataL := 0x41424344, dataR := 0x45464748 } 2).map State.block =
      some (0x43157585, 0x35122B51) := by decide

/-- B2, the round keys 0. -/
theorem test_encblk_zero_keys :
    (stepOn { State.reset with dataL := 0x01234567, dataR := 0x89ABCDEF } 2).map State.block =
      some (0x671A574A, 0x0CC27A8F) := by decide

/-- B4. -/
theorem test_decblk :
    (stepOn { keyed with rk := k3, dataL := 0x43157585, dataR := 0x35122B51 } 3).map State.block =
      some (0x41424344, 0x45464748) := by decide

/-- DECBLK of a block that is no ciphertext (95_test_vectors.md 2.5). -/
theorem test_decblk_zero_keys :
    (stepOn { State.reset with dataL := 0x01234567, dataR := 0x89ABCDEF } 3).map State.block =
      some (0xDF7AD0AD, 0xD6B9B28A) := by decide

/-- F7 (a rotation amount taken from the key) and F9 (n = 31). -/
theorem test_feval_4 :
    (stepOn { State.reset with fin := 0x12345678, fkey := 0x0000000F } 0x404).map State.fout = some 0x8BF0DCAD := by
  decide
theorem test_feval_31 :
    (stepOn { State.reset with fin := 0x89ABCDEF, fkey := 0x01234567 } 0x1F04).map State.fout = some 0x975C0BD6 := by
  decide

/-- PB3 and PB0. -/
theorem test_padblk_3 :
    (stepOn { State.reset with dataL := 0x41424344, dataR := 0x45464748 } 0x305).map State.block =
      some (0x41424305, 0x05050505) := by decide
theorem test_padblk_0 :
    (stepOn { State.reset with dataL := 0x41424344, dataR := 0x45464748 } 0x005).map State.block =
      some (0x08080808, 0x08080808) := by decide

/-- U5: byte 1 = 05 belongs to the data. -/
theorem test_unpadblk :
    (stepOn { State.reset with dataL := 0x41050505, dataR := 0x05050505 } 6).map
      (fun t => (t.padresWord, t.statusWord)) = some (0x00000305, 0x00000002) := by decide

/-- U7: byte 1 = 08 is no pad byte 07. -/
theorem test_unpadblk_padding :
    (stepOn { State.reset with dataL := 0x08080808, dataR := 0x08080807 } 6).map
      (fun t => (t.padresWord, t.statusWord, t.block)) = some (0, 0x00000306, 0x08080808, 0x08080807) := by decide

/-- M4. -/
theorem test_encmsg :
    (stepOn (withMessage abcdefgh) 7).map (fun t => (t.msglen, t.buf)) =
      some (16, bytes [0x43, 0x15, 0x75, 0x85, 0x35, 0x12, 0x2B, 0x51, 0xAE, 0xCB, 0xB7, 0xB9, 0xFF, 0x55, 0xC6, 0xE3]) :=
  by decide

/-- X5: the key check comes before the capacity check. -/
theorem test_encmsg_priority :
    (stepOn { keyed with klen := 7, msglen := 1024 } 7).map (fun t => (t.statusWord, t.msglen, t.errcmd)) =
      some (0x00000106, 1024, 7) := by decide

/-- M3. -/
theorem test_decmsg :
    (stepOn (withMessage [0x25, 0x01, 0xDF, 0x15, 0xD4, 0xC0, 0x74, 0xDB]) 8).map
      (fun t => (t.msglen, t.buf, t.padresWord)) =
      some (7, bytes [0x41, 0x42, 0x43, 0x44, 0x45, 0x46, 0x47, 0x01], 0x00000701) := by decide

/-- P3b: a padding failure zeroes the message and keeps the new round keys. -/
theorem test_decmsg_padding :
    (stepOn (withMessage [0, 0, 0, 0, 0, 0, 0, 0]) 8).map (fun t => (t.statusWord, t.msglen, t.buf)) =
      some (0x00000306, 8, bytes [0, 0, 0, 0, 0, 0, 0, 0]) ∧
    (stepOn (withMessage [0, 0, 0, 0, 0, 0, 0, 0]) 8).map (fun t => (t.errcmd, t.rk)) = some (8, k3) := by decide

/-! ### The host port, vectors H1 to H12 -/

theorem test_read_id_param :
    State.reset.hostRead 0x000 = (0x46434331, .okay) ∧ State.reset.hostRead 0x004 = (0x00840400, .okay) := by decide
theorem test_read_misaligned : State.reset.hostRead 0x002 = (0, .slverr) := by decide
theorem test_read_past_buffer : State.reset.hostRead 0x1400 = (0, .slverr) := by decide
theorem test_write_unmapped : State.reset.hostWrite 0x050 1 = (State.reset, .slverr) := by decide
theorem test_write_keylen : (State.reset.hostWrite 0x018 0xFFFFFFF8).1.hostRead 0x018 = (8, .okay) := by decide
theorem test_write_ctrl : (State.reset.hostWrite 0x008 0x7FFFFFFF).1.hostRead 0x008 = (7, .okay) := by decide
theorem test_soft_reset : (keyed.hostWrite 0x008 0x80000007).1 = State.reset := by decide
theorem test_write_buffer :
    (State.reset.hostWrite 0x1000 0x48656C6C).1.buf = bytes [0x48, 0x65, 0x6C, 0x6C] ∧
    (State.reset.hostWrite 0x1000 0x48656C6C).1.hostRead 0x1000 = (0x48656C6C, .okay) := by decide

/-- The state of vector H11. -/
def failed : State := { State.reset with done := true, err := true, ovr := true, ecode := 1, errcmd := 1 }

theorem test_write_status :
    failed.statusWord = 0x0000010E ∧ (failed.hostWrite 0x00C 0xFFFFFFFF).1 = State.reset := by decide

/-- A state with KEYEXP pending. -/
def busyKeyexp : State := keyed.accept 1

theorem test_busy_write :
    busyKeyexp.hostWrite 0x028 5 = ({ busyKeyexp with ovr := true }, .okay) ∧
    busyKeyexp.hostRead 0x020 = (0x01234567, .okay) := by decide

/-! ### Host programs -/

/-- The host program after some slots, where none of them stops. -/
def afterSlots (cs : List Slot) (r : HostRun) : Option HostRun :=
  match HostRun.run cs r with
  | .next q => some q
  | .fault _ => none
  | .refused _ => none

/-- `BUF+o` at the last 16-bit address, and one past it (log 14). -/
theorem test_buf_operand :
    bufAddr 20 = some 0x1014 ∧ bufAddr 0xEFFF = some 0xFFFF ∧ bufAddr 0xF000 = none ∧ bufAddr 0xF010 = none ∧
    (HostStmt.ldbuf 0xEFFC [1, 2]).ops = none := by decide

/-- 30_encoding.md R124: `ldkey` and `ldbuf`. -/
theorem test_expansions :
    (HostStmt.ldkey 1 2).ops =
      some [.txn (.write 0x020 1), .txn (.write 0x024 2), .txn (.write 0x018 8)] ∧
    (HostStmt.ldbuf 8 [3, 4]).ops = some [.txn (.write 0x1008 3), .txn (.write 0x100C 4)] ∧
    hostProgram [.issue .nop, .wait] = (HostStmt.run .nop).ops ∧ hostProgram [.clrst, .run (.feval 0)] = none := by
  decide

/-- Statements 3 to 5 of program P6 of 95_test_vectors.md, `issue feval 1`, `wr FIN, 0` and `wait`, after 1 and 2. -/
def p6 : HostRun :=
  { ops := [wrReg .cmd 0x00000104, wrReg .fin 0, .waitIdle],
    state := { State.reset with fin := 0x12345678, fkey := 0x9ABCDEF0 } }

theorem test_p6_expansion :
    hostProgram [.issue (.feval 1), .wr (.reg .fin) 0, .wait] = some p6.ops := by decide

/-- P6, outcome (a): the engine step comes before statement 4. -/
theorem test_p6_engine_before :
    (afterSlots [.host, .engine, .host, .host] p6).map
      (fun r => (r.ops, r.state.statusWord, r.state.fin, r.state.fout)) =
      some ([], 0x00000002, 0x00000000, 0x6A7BF5C0) := by decide

/-- P6, outcome (b): the engine step comes after statement 4. -/
theorem test_p6_engine_after :
    (afterSlots [.host, .host, .engine, .host] p6).map
      (fun r => (r.ops, r.state.statusWord, r.state.fin, r.state.fout)) =
      some ([], 0x0000000A, 0x12345678, 0x6A7BF5C0) := by decide

/-! ### Witnesses: the invariant and runs of one step -/

/-- Reset values are a state with the invariant. -/
theorem witness_inv_reset : Inv State.reset :=
  ⟨by decide, ⟨rfl, by rintro w ⟨⟩⟩, by decide, by decide, by decide, by decide⟩

/-- So is a pending command in a state with a key, a message and an old error. -/
def busyFailed : State := { (withMessage abcdefgh).accept 6 with err := true, ecode := 1, errcmd := 1, ovr := true }

theorem witness_inv_busy : Inv busyFailed :=
  ⟨by decide, And.intro rfl fun w h => by injection h with h; subst h; exact ⟨rfl, rfl⟩, by decide, by decide,
    by decide, by decide⟩

theorem witness_inv_busyKeyexp : Inv busyKeyexp :=
  ⟨by decide, And.intro rfl fun w h => by injection h with h; subst h; exact ⟨rfl, rfl⟩, by decide, by decide,
    by decide, by decide⟩

theorem witness_inv_failed : Inv failed :=
  ⟨by decide, ⟨by decide, by rintro w ⟨⟩⟩, by decide, by decide, by decide, by decide⟩

/-- Events still to come make no difference to the invariant while the reset input is released. -/
theorem witness_inv_scheduled {s : State} (h : Inv s) (hr : s.rst = false) (es : List Event) :
    Inv { s with schedule := es } :=
  ⟨h.cfg, h.pending, h.errors, h.padres, h.buf, fun h1 => by
    rw [show s.rst = true from h1] at hr
    cases hr⟩

/-- The reset input asserted. -/
def heldBy (es : List Event) : State := { State.reset.assertReset with schedule := es }

theorem witness_inv_held (es : List Event) : Inv (heldBy es) :=
  ⟨(by decide : State.reset.cfg.wf), ⟨rfl, by rintro w ⟨⟩⟩, ⟨fun _ => ⟨rfl, rfl⟩, by rintro ⟨⟩⟩, .inl ⟨rfl, rfl⟩,
    ⟨List.Pairwise.nil, by rintro c ⟨⟩⟩, fun _ => rfl⟩

/-- EveryStepKeepsTheInvariant, IdAndParamNeverChange: a step of each kind answers a next state. -/
theorem witness_step_next :
    (after (step State.reset)).isSome = true ∧ (after (step busyFailed)).isSome = true ∧
    (after (step { busyFailed with schedule := [.host (.write 0x008 0x80000000)] })).isSome = true ∧
    (after (step { busyFailed with schedule := [.assertReset] })).isSome = true ∧
    (after (step (heldBy [.releaseReset]))).isSome = true := by decide

/-- ResetInputHoldsTheMachine. -/
theorem witness_reset_input :
    ({ busyKeyexp with schedule := [.assertReset] } : State).nextEvent = .assertReset ∧
    ((heldBy []).rst = true ∧ (heldBy []).nextEvent = .engine) ∧
    ((heldBy [.host (.read 0)]).rst = true ∧ (heldBy [.host (.read 0)]).nextEvent = .host (.read 0)) ∧
    ((heldBy [.releaseReset]).rst = true ∧ (heldBy [.releaseReset]).nextEvent = .releaseReset) := by decide

/-- LegalScheduleIsNeverStopped. -/
theorem witness_legal_schedule :
    legalSchedule false
      [.host (.write 0x010 1), .engine, .assertReset, .engine, .releaseReset, .host (.read 0x00C)] = true := by decide

/-! ### Witnesses: encoding -/

/-- DecodeOfEncodeIsTheCommand, at the ends of RN and CNT. -/
theorem witness_wf :
    (Instr.feval 1).wf = true ∧ (Instr.feval 31).wf = true ∧ (Instr.padblk 0).wf = true ∧
    (Instr.padblk 7).wf = true ∧ Instr.decmsg.wf = true := by decide

/-- DecodedWordIsTheCommandsWord, FetchWordIsRunByTheNextStep. -/
theorem witness_decoded :
    decode 0x00000104 = .ok (.feval 1) ∧ decode 0x00001F04 = .ok (.feval 31) ∧
    decode 0x00000705 = .ok (.padblk 7) := by decide

/-- IllegalWordsFailWithCodeFive, at the boundary of each clause. -/
theorem witness_illegal :
    illegalWord 0x09 ∧ illegalWord 0xFF ∧ illegalWord 0x100 ∧ illegalWord 0x80000008 ∧ illegalWord 0x04 ∧
    illegalWord 0x2004 ∧ illegalWord 0x805 ∧ ¬ illegalWord 0x1F04 ∧ ¬ illegalWord 0x705 ∧
    (State.reset.accept 0x2004).rst = false ∧ (State.reset.accept 0x2004).pend = some 0x2004 := by
  unfold illegalWord
  and_intros <;> decide

/-! ### Witnesses: the host port -/

/-- MisalignedOrUnmappedGetsSlverr, at the ends of each range. -/
theorem witness_slverr :
    (0x002#16).toNat % 4 ≠ 0 ∧ (0x050 ≤ (0x050#16).toNat ∧ (0x050#16).toNat ≤ 0x0FFF) ∧
    (0x050 ≤ (0x0FFC#16).toNat ∧ (0x0FFC#16).toNat ≤ 0x0FFF) ∧
    0x1000 + State.reset.cfg.bufBytes ≤ (0x1400#16).toNat ∧
    0x1000 + State.reset.cfg.bufBytes ≤ (0xFFFC#16).toNat := by decide

/-- MappedAccessGetsOkay, WindowWriteSetsFourBytes, at the ends of the register block and of the window. -/
theorem witness_mapped :
    (0x000#16).toNat % 4 = 0 ∧ (0x04C#16).toNat % 4 = 0 ∧ (0x04C#16).toNat ≤ 0x04F ∧
    (0x1000#16).toNat % 4 = 0 ∧ inWindow State.reset.cfg 0x1000 ∧
    (0x13FC#16).toNat % 4 = 0 ∧ inWindow State.reset.cfg 0x13FC ∧ State.reset.busy = false := by
  unfold inWindow
  decide

/-- HostReadGivesTheRegistersValue, WrittenMessagesLeaveNothingOpen: a well-formed BUF_BYTES, idle and busy, and the
ends of the ranges of the result set. -/
theorem witness_result_set :
    State.reset.cfg.wf ∧ ({ bufBytes := 16 } : Config).wf ∧ ({ bufBytes := 0xF000 } : Config).wf ∧
    State.reset.busy = false ∧ busyKeyexp.busy = true ∧
    inResultSet busyKeyexp.cfg 0x01C ∧ inResultSet busyKeyexp.cfg 0x028 ∧ inResultSet busyKeyexp.cfg 0x03C ∧
    inResultSet busyKeyexp.cfg 0x048 ∧ inResultSet busyKeyexp.cfg 0x04C ∧ inResultSet busyKeyexp.cfg 0x1000 ∧
    inResultSet busyKeyexp.cfg 0x13FC := by
  unfold inResultSet inWindow
  and_intros <;> decide

/-- HostReadChangesNoRegister, HostWriteStepPerformsTheWrite. -/
theorem witness_host_step :
    ({ busyKeyexp with schedule := [.host (.read 0x00C), .engine] } : State).rst = false ∧
    ({ busyKeyexp with schedule := [.host (.write 0x028 5)] } : State).schedule = [.host (.write 0x028 5)] := by decide

/-- ReadOnlyRegistersIgnoreWrites, DataRegisterReadsBackAndOthersKeep at the ends of its range. -/
theorem witness_registers :
    (0x000 : HostAddr) ∈ ([0x000, 0x004, 0x014, 0x048, 0x04C] : List HostAddr) ∧
    (0x04C : HostAddr) ∈ ([0x000, 0x004, 0x014, 0x048, 0x04C] : List HostAddr) ∧
    keyed.busy = false ∧ (0x018#16).toNat % 4 = 0 ∧ 0x18 ≤ (0x018#16).toNat ∧ (0x044#16).toNat % 4 = 0 ∧
    (0x044#16).toNat ≤ 0x44 ∧ (0x044 : HostAddr) ≠ 0x18 ∧ (0x01C : HostAddr) ≠ 0x018 := by decide

/-- CtrlWriteSetsTheEnables, SoftResetDiscardsThePendingCommand, ResetValuesHoldAfterEveryReset. -/
theorem witness_ctrl_values :
    (0x7FFFFFFF#32).toNat < 2 ^ 31 ∧ 2 ^ 31 ≤ (0x80000000#32).toNat ∧ (0x80000000#32)[31] = true := by decide

/-- BusyWriteIsDroppedAndSetsOvr, CmdWriteWhileIdleAcceptsTheWord: busy and idle, and the ends of the input set. -/
theorem witness_input_set :
    busyKeyexp.busy = true ∧ keyed.busy = false ∧ inInputSet busyKeyexp.cfg 0x010 ∧ inInputSet busyKeyexp.cfg 0x018 ∧
    inInputSet busyKeyexp.cfg 0x044 ∧ inInputSet busyKeyexp.cfg 0x1000 ∧ inInputSet busyKeyexp.cfg 0x13FC ∧
    (0x00000007#32)[31] = false ∧ (0xFFFFFFFF#32)[31] = true := by
  unfold inInputSet inWindow
  and_intros <;> decide

/-! ### Witnesses: the command cycle -/

/-- StepRunsThePendingCommand: a pending command with an empty schedule or with the engine's turn first; nothing
pending. -/
theorem witness_engine_step :
    busyKeyexp.rst = false ∧ busyKeyexp.pend = some 1 ∧ decode 1 = .ok .keyexp ∧ busyKeyexp.schedule = [] ∧
    ({ busyKeyexp with schedule := [.engine, .host (.read 0)] } : State).schedule.head? = some .engine ∧
    keyed.pend = none := by decide

/-- FailureRecordsTheFirstError and every statement about a failing command: a pending word. -/
theorem witness_pending : busyKeyexp.pend = some 1 ∧ busyFailed.pend = some 6 ∧ busyFailed.err = true := by decide

/-- PendingCommandLifecycle: acceptance; the end by the engine, by a soft reset, by the reset input; a poll in between.
Each from a state with the invariant (`witness_inv_busyKeyexp` with `witness_inv_scheduled`). -/
theorem witness_lifecycle :
    (State.reset.pend = none ∧
      (after (step { State.reset with schedule := [.host (.write 0x010 1)] })).map State.pend = some (some 1)) ∧
    (busyKeyexp.pend = some 1 ∧ busyKeyexp.nextEvent = .engine ∧
      (after (step busyKeyexp)).map State.pend = some none) ∧
    (after (step { busyKeyexp with schedule := [.host (.write 0x008 0x80000000)] })).map State.pend = some none ∧
    (after (step { busyKeyexp with schedule := [.assertReset] })).map State.pend = some none ∧
    (after (step { busyKeyexp with schedule := [.host (.read 0x00C)] })).map State.pend = some (some 1) := by decide

/-- ErrIsStickyUntilAcknowledged: ERR set by a failing command; cleared by an acknowledgement and by a reset; kept. -/
theorem witness_err :
    ((State.reset.accept 1).err = false ∧ (after (step (State.reset.accept 1))).map State.err = some true) ∧
    (failed.err = true ∧
      (after (step { failed with schedule := [.host (.write 0x00C 4)] })).map State.err = some false ∧
      (after (step { failed with schedule := [.host (.write 0x008 0x80000000)] })).map State.err = some false ∧
      (after (step failed)).map State.err = some true) := by decide

/-- The failing command of `witness_err` stands in a state with the invariant. -/
theorem witness_inv_err : Inv (State.reset.accept 1) :=
  ⟨by decide, And.intro rfl fun w h => by injection h with h; subst h; exact ⟨rfl, rfl⟩, by decide, by decide,
    by decide, by decide⟩

/-- OvrRecordsDroppedWrites: OVR set by a dropped write; cleared by an acknowledgement and by a reset. -/
theorem witness_ovr :
    (busyKeyexp.ovr = false ∧ busyKeyexp.busy = true ∧
      ({ busyKeyexp with schedule := [.host (.write 0x028 5)] } : State).nextEvent = .host (.write 0x028 5) ∧
      (after (step { busyKeyexp with schedule := [.host (.write 0x028 5)] })).map State.ovr = some true) ∧
    (failed.ovr = true ∧
      (after (step { failed with schedule := [.host (.write 0x00C 8)] })).map State.ovr = some false ∧
      (after (step { failed with schedule := [.assertReset] })).map State.ovr = some false) ∧
    inInputSet busyKeyexp.cfg 0x028 := by
  unfold inInputSet inWindow
  decide

/-- DoneIsSetByEveryCompletion: DONE set by the engine; cleared by an acceptance, an acknowledgement and a reset. -/
theorem witness_done :
    (busyKeyexp.done = false ∧ busyKeyexp.nextEvent = .engine ∧ (after (step busyKeyexp)).map State.done = some true) ∧
    (failed.done = true ∧ failed.pend = none ∧
      (after (step { failed with schedule := [.host (.write 0x010 0)] })).map (fun t => (t.done, t.pend)) =
        some (false, some 0) ∧
      (after (step { failed with schedule := [.host (.write 0x00C 2)] })).map State.done = some false ∧
      (after (step { failed with schedule := [.host (.write 0x008 0x80000000)] })).map State.done = some false) := by
  decide

/-- OnlyHostWritesChangeTheKey: each of the three registers changed by a write, and by a reset. -/
theorem witness_key :
    (after (step { State.reset with schedule := [.host (.write 0x020 1)] })).map State.keyHi = some 1 ∧
    (after (step { State.reset with schedule := [.host (.write 0x024 1)] })).map State.keyLo = some 1 ∧
    (after (step { State.reset with schedule := [.host (.write 0x018 8)] })).map State.klen = some 8 ∧
    (after (step { keyed with schedule := [.assertReset] })).map (fun t => (t.keyHi, t.keyLo, t.klen)) =
      some (0, 0, 0) := by decide

/-- RunStatementCompletesAtEveryLatency: an order in which the loop ends at its first poll, one in which it ends after
three, and one in which the engine has not had its turn. -/
theorem witness_run_statement :
    keyed.rst = false ∧ keyed.busy = false ∧ keyed.pend = none ∧ assemble .keyexp = some 1 ∧
    (HostStmt.run .keyexp).ops = some [wrReg .cmd 1, .waitIdle] ∧
    (afterSlots [.host, .engine, .host] { ops := [wrReg .cmd 1, .waitIdle], state := keyed }).map HostRun.ops =
      some [] ∧
    (afterSlots [.engine, .host, .host, .host, .engine, .engine, .host, .engine]
      { ops := [wrReg .cmd 1, .waitIdle], state := keyed }).map HostRun.ops = some [] ∧
    (afterSlots [.host, .host, .host] { ops := [wrReg .cmd 1, .waitIdle], state := keyed }).map HostRun.ops =
      some [.waitIdle] := by decide

/-! ### Witnesses: the commands -/

/-- The Errors clause of each command's statement: a pending word of its opcode with another bit set. -/
theorem witness_bad_words :
    (State.reset.accept 0x00000100).rst = false ∧ (State.reset.accept 0x00000100).pend = some 0x00000100 ∧
    (∀ opc ∈ [0, 1, 2, 3, 6, 7, 8], (0x80000000 + opc) % 256 = opc ∧ 0x80000000 + opc ≠ opc) ∧
    (4 % 256 = 4 ∧ 4 / 256 % 32 = 0) ∧ (0x2104 % 256 = 4 ∧ 0x2104 / 2 ^ 13 ≠ 0) ∧
    (0x805 % 256 = 5 ∧ 0x805 / 2 ^ 11 ≠ 0) := by decide

/-- FevalComputesTheRoundFunction, PadblkPadsTheBlock, UnpadblkAcceptsPadblksBlock: the ends of RN and CNT. -/
theorem witness_operands : (1 ≤ 1 ∧ 1 ≤ 31) ∧ (1 ≤ 31 ∧ 31 ≤ 31) ∧ 0 ≤ 7 ∧ 7 ≤ 7 := by decide

/-- BitUtilitiesOnNumbers, PadAndUnpadByTheirDefinition, MessageFunctionsWorkBlockwise: strings of 8 and of 7 bytes, and
a chunk with its halves. -/
theorem witness_strings :
    abcdefgh.length = 8 ∧ abcdefgh.length % 8 = 0 ∧ (abcdefgh.take 7).length % 8 ≠ 0 ∧
    8 * 1 + 8 ≤ (pad abcdefgh).length ∧
    (∀ i, i < 8 → blockByte (0x08080808, 0x08080808) i = (pad abcdefgh).getD (8 * 1 + i) 0) ∧
    (∀ i, i < 8 → blockByte (0x41424344, 0x45464748) i = abcdefgh.getD (8 * 0 + i) 0) ∧
    unpad (pad abcdefgh) = some abcdefgh := by decide

/-- KeyexpDerivesTheRoundKeys. -/
theorem witness_keyexp :
    keyed.klen = 8 ∧ (State.reset.accept 1).pend = some 1 ∧ (State.reset.accept 1).klen ≠ 8 := by decide

/-- UnpadblkChecksThePadding: right padding of length 1 (U1) and 8 (U6). -/
theorem witness_padded :
    padded { State.reset with dataL := 0x41424344, dataR := 0x45464701 } 1 ∧
    padded { State.reset with dataL := 0x08080808, dataR := 0x08080808 } 8 := by
  unfold padded
  decide

/-- UnpadblkChecksThePadding: wrong padding, the last byte 0 (U8), and a pad byte that differs (U3). -/
theorem witness_not_padded :
    (¬ ∃ p, padded { State.reset.accept 6 with dataL := 0x41424344, dataR := 0x45464700 } p) ∧
    (¬ ∃ p, padded { State.reset.accept 6 with dataL := 0x41424344, dataR := 0x45460302 } p) := by
  unfold padded
  constructor
  · rintro ⟨p, rfl, h⟩
    revert h
    decide
  · rintro ⟨p, rfl, h⟩
    revert h
    decide

/-- EncmsgEncryptsTheBuffer, DecmsgRestoresEncmsgsMessage: the ends of the range of MSGLEN, and each failure. -/
theorem witness_encmsg :
    keyed.cfg.wf ∧ keyed.klen = 8 ∧ keyed.msglen.toNat < keyed.cfg.bufBytes ∧
    ({ keyed with msglen := 1023 } : State).msglen.toNat < keyed.cfg.bufBytes ∧
    ({ keyed with msglen := 1023 } : State).msglen.toNat ≤ keyed.cfg.bufBytes - 1 ∧
    ((State.reset.accept 7).pend = some 7 ∧ (State.reset.accept 7).klen ≠ 8) ∧
    ((keyed.accept 7).pend = some 7 ∧ keyed.cfg.bufBytes ≤ ({ keyed with msglen := 1024 } : State).msglen.toNat) := by
  decide

/-- DecmsgDecryptsTheBuffer: each failure before the decryption (X1, X2, X3). -/
theorem witness_decmsg_failures :
    (keyed.accept 8).pend = some 8 ∧ ({ keyed with msglen := 7 } : State).msglen.toNat % 8 ≠ 0 ∧
    (({ keyed with msglen := 1032 } : State).msglen.toNat % 8 = 0 ∧
      keyed.cfg.bufBytes < ({ keyed with msglen := 1032 } : State).msglen.toNat) ∧
    (({ State.reset with msglen := 16 } : State).msglen.toNat % 8 = 0 ∧
      ({ State.reset with msglen := 16 } : State).msglen.toNat ≤ State.reset.cfg.bufBytes ∧ State.reset.klen ≠ 8) := by
  decide

/-- M1 decrypts to the empty message, and M3 to seven bytes. -/
def cipherM1 : State := withMessage [0xAE, 0xCB, 0xB7, 0xB9, 0xFF, 0x55, 0xC6, 0xE3]
def cipherM3 : State := withMessage [0x25, 0x01, 0xDF, 0x15, 0xD4, 0xC0, 0x74, 0xDB]

/-- DecmsgDecryptsTheBuffer: success with the longest and the shortest padding. -/
theorem witness_decmsg_success :
    (cipherM1.klen = 8 ∧ cipherM1.msglen.toNat ≤ cipherM1.cfg.bufBytes) ∧
    decryptMessage (cipherM1.message cipherM1.msglen.toNat) cipherM1.masterKey = .ok [] ∧
    decryptMessage (cipherM3.message cipherM3.msglen.toNat) cipherM3.masterKey =
      .ok [0x41, 0x42, 0x43, 0x44, 0x45, 0x46, 0x47] := by decide

/-- P3b: a zero block with DECMSG pending. -/
def zeroBlock : State := (withMessage [0, 0, 0, 0, 0, 0, 0, 0]).accept 8

/-- DecmsgDecryptsTheBuffer: a padding failure with one block, and with none (X4). -/
theorem witness_decmsg_padding :
    zeroBlock.pend = some 8 ∧ zeroBlock.klen = 8 ∧ zeroBlock.msglen.toNat ≤ zeroBlock.cfg.bufBytes ∧
    decryptMessage (zeroBlock.message zeroBlock.msglen.toNat) zeroBlock.masterKey = .error .padding ∧
    decryptMessage (keyed.message keyed.msglen.toNat) keyed.masterKey = .error .padding := by decide

/-- FailedDecmsgShowsNoPlaintext, CommandsRaiseOnlyTheirErrors: code 3, and an earlier failure. -/
theorem witness_failed_decmsg :
    (zeroBlock.err = false ∧ (after (exec .decmsg zeroBlock)).map (fun t => (t.err, t.ecode)) = some (true, 3)) ∧
    (after (exec .decmsg { keyed with msglen := 7 })).map (fun t => (t.err, t.ecode)) = some (true, 4) ∧
    (after (exec .decmsg { keyed with msglen := 1032 })).map (fun t => (t.err, t.ecode)) = some (true, 6) ∧
    (after (exec .decmsg { State.reset with msglen := 16 })).map (fun t => (t.err, t.ecode)) = some (true, 1) := by
  decide

/-- CommandsRaiseOnlyTheirErrors: the codes of the other commands. -/
theorem witness_raised :
    (after (exec .keyexp State.reset)).map (fun t => (t.err, t.ecode)) = some (true, 1) ∧
    (after (exec .unpadblk State.reset)).map (fun t => (t.err, t.ecode)) = some (true, 3) ∧
    (after (exec .encmsg State.reset)).map (fun t => (t.err, t.ecode)) = some (true, 1) ∧
    (after (exec .encmsg { keyed with msglen := 1024 })).map (fun t => (t.err, t.ecode)) = some (true, 6) := by decide

/-- "ABCDEFGHABCDEFGH" of M5 and "ABCDEFGHA". -/
def twice : State := withMessage (abcdefgh ++ abcdefgh)
def nine : State := withMessage (abcdefgh ++ [0x41])

/-- EqualPlaintextBlocksEncryptEqually: M5 against itself and against another message. -/
theorem witness_equal_blocks :
    twice.klen = 8 ∧ nine.klen = 8 ∧ twice.keyHi = nine.keyHi ∧ twice.keyLo = nine.keyLo ∧
    twice.msglen.toNat < twice.cfg.bufBytes ∧ nine.msglen.toNat < nine.cfg.bufBytes ∧
    1 < twice.msglen.toNat / 8 ∧ 0 < nine.msglen.toNat / 8 ∧
    (after (exec .encmsg twice)).isSome = true ∧ (after (exec .encmsg nine)).isSome = true ∧
    (∀ j, j < 8 → twice.bufByte (8 * 1 + j) = twice.bufByte (8 * 0 + j)) ∧
    (∀ j, j < 8 → twice.bufByte (8 * 1 + j) = nine.bufByte (8 * 0 + j)) := by decide

/-- HostBlockLoopEqualsEncmsg: the full block and the last block of "ABCDEFGHA". -/
theorem witness_block_loop :
    nine.klen = 8 ∧ nine.msglen.toNat < nine.cfg.bufBytes ∧ (after (exec .encmsg nine)).isSome = true ∧
    0 < nine.msglen.toNat / 8 ∧
    (∀ j, j < 8 → blockByte (0x41424344, 0x45464748) j = nine.bufByte (8 * 0 + j)) ∧
    (∀ j, j < nine.msglen.toNat % 8 →
      blockByte (0x41FFFFFF, 0xFFFFFFFF) j = nine.bufByte (8 * (nine.msglen.toNat / 8) + j)) := by decide

/-- HostBlockLoopEqualsDecmsg: M1, whose one block is the last, and the zero block, on which DECMSG fails. -/
theorem witness_block_loop_decmsg :
    (cipherM1.klen = 8 ∧ cipherM1.err = false ∧ 0 < cipherM1.msglen.toNat ∧ cipherM1.msglen.toNat % 8 = 0 ∧
      cipherM1.msglen.toNat ≤ cipherM1.cfg.bufBytes) ∧
    (after (exec .decmsg cipherM1)).map State.err = some false ∧ 8 * 0 + 8 = cipherM1.msglen.toNat ∧
    (∀ j, j < 8 → blockByte (0xAECBB7B9, 0xFF55C6E3) j = cipherM1.bufByte (8 * 0 + j)) ∧
    (after (exec .decmsg zeroBlock)).map State.err = some true := by decide

/-- RepeatedEncmsgGrowsByEight: a message with room for another block, and one that fills a buffer of 16 bytes. -/
theorem witness_repeated_encmsg :
    (after (exec .encmsg keyed)).map State.msglen = some 8 ∧ 8 < keyed.cfg.bufBytes ∧
    (after (exec .encmsg { withMessage abcdefgh with cfg := { bufBytes := 16 } })).map State.msglen = some 16 := by
  decide

/-- CommandsWriteOnlyTheirResults, MessageCommandsStoreOnlyTheMessage: every command answers a next state. -/
theorem witness_exec_next (i : Instr) (s : State) : ∃ t, exec i s = .next t := by
  obtain ⟨u, -, h | ⟨e, -, h⟩⟩ := exec_cases i s
  · exact ⟨_, h⟩
  · exact ⟨_, h⟩

/-- WrittenMessagesLeaveNothingOpen: every byte of the message written. -/
theorem witness_written :
    (∀ o, o < cipherM1.msglen.toNat → cipherM1.buf.find o ≠ none) ∧
    (after (exec .decmsg cipherM1)).isSome = true := by decide

end Sys2Proof.Tests
end

namespace Sys2Proof.Machine

/-! ## The state's rules: what a step does to the flags, the error registers, the key and the parameters

Proofs of the statements on 10_state.md. `Stepped` says once how a step ends; each register group has one lemma that
says how a step can change it, and the statements follow from these. -/

/-! ### STATUS, CTRL and IRQ by their bits (10_state.md R35, R37, R55) -/

/-- Bit n of a word as its number has it. -/
theorem word_getElem_eq_div_mod (v : Word) (n : Nat) (hn : n < 32) : v[n] = (v.toNat / 2 ^ n % 2 == 1) := by
  rw [BitVec.getElem_eq_testBit_toNat, Nat.testBit_eq_decide_div_mod_eq]
  rfl

/-- Joining a word whose number is below 2^n and one whose number is a multiple of 2^n adds the numbers. -/
theorem word_toNat_or_eq_add {x y : Word} {n k : Nat} (hx : x.toNat < 2 ^ n) (hy : y.toNat = 2 ^ n * k) :
    (x ||| y).toNat = x.toNat + y.toNat := by
  rw [BitVec.toNat_or, hy, Nat.or_comm, ← Nat.two_pow_add_eq_or_of_lt hx, Nat.add_comm]

theorem arithBit_le_one (b : Bool) : Arith.bit b ≤ 1 := by cases b <;> decide

theorem flagBit_toNat (b : Bool) {n : Nat} (hn : n < 32) : (flagBit b n).toNat = 2 ^ n * Arith.bit b := by
  have hp : 2 ^ n < 4294967296 := Nat.pow_lt_pow_right (a := 2) (n := 32) (by decide) hn
  cases b <;> simp [flagBit, Arith.bit, Nat.shiftLeft_eq, hp]

section
variable (s : State) (v : Word)

/-- CTRL's number (R35). -/
theorem State.ctrlWord_toNat :
    s.ctrlWord.toNat = Arith.bit s.ieDone + 2 * Arith.bit s.ieErr + 4 * Arith.bit s.ieOvr := by
  have h0 := flagBit_toNat s.ieDone (n := 0) (by decide)
  have h1 := flagBit_toNat s.ieErr (n := 1) (by decide)
  have h2 := flagBit_toNat s.ieOvr (n := 2) (by decide)
  have b0 := arithBit_le_one s.ieDone
  have b1 := arithBit_le_one s.ieErr
  have e1 := word_toNat_or_eq_add (x := flagBit s.ieDone 0) (by omega) h1
  have e2 := word_toNat_or_eq_add (x := flagBit s.ieDone 0 ||| flagBit s.ieErr 1) (by omega) h2
  rw [State.ctrlWord]
  omega

/-- STATUS's number (R37). -/
theorem State.statusWord_toNat :
    s.statusWord.toNat =
      Arith.bit s.busy + 2 * Arith.bit s.done + 4 * Arith.bit s.err + 8 * Arith.bit s.ovr + 256 * s.ecode.toNat := by
  have h0 := flagBit_toNat s.busy (n := 0) (by decide)
  have h1 := flagBit_toNat s.done (n := 1) (by decide)
  have h2 := flagBit_toNat s.err (n := 2) (by decide)
  have h3 := flagBit_toNat s.ovr (n := 3) (by decide)
  have h8 : (s.ecode.setWidth 32 <<< 8).toNat = 2 ^ 8 * s.ecode.toNat := by
    have := s.ecode.isLt
    rw [BitVec.toNat_shiftLeft, BitVec.toNat_setWidth, Nat.shiftLeft_eq]
    omega
  have b0 := arithBit_le_one s.busy
  have b1 := arithBit_le_one s.done
  have b2 := arithBit_le_one s.err
  have b3 := arithBit_le_one s.ovr
  have e1 := word_toNat_or_eq_add (x := flagBit s.busy 0) (by omega) h1
  have e2 := word_toNat_or_eq_add (x := flagBit s.busy 0 ||| flagBit s.done 1) (by omega) h2
  have e3 := word_toNat_or_eq_add (x := flagBit s.busy 0 ||| flagBit s.done 1 ||| flagBit s.err 2) (by omega) h3
  have e4 := word_toNat_or_eq_add (x := flagBit s.busy 0 ||| flagBit s.done 1 ||| flagBit s.err 2 ||| flagBit s.ovr 3)
    (by omega) h8
  rw [State.statusWord]
  omega

/-- The write-one-to-clear write of R37, field by field. -/
theorem State.writeStatus_eq :
    s.writeStatus v = { s with
      done := s.done && !v[1]
      err := s.err && !v[2]
      ecode := if v[2] then 0 else s.ecode
      errcmd := if v[2] then 0 else s.errcmd
      ovr := s.ovr && !v[3] } := by
  have hdone : (if v[1] then s.clearDone else s) = { s with done := s.done && !v[1] } := by
    cases v[1] <;> simp [State.clearDone]
  have herr : ∀ u : State, (if v[2] then u.ackError else u) = { u with
      err := u.err && !v[2], ecode := if v[2] then 0 else u.ecode, errcmd := if v[2] then 0 else u.errcmd } := by
    intro u
    cases v[2] <;> simp [State.ackError]
  have hovr : ∀ u : State, (if v[3] then u.clearOvr else u) = { u with ovr := u.ovr && !v[3] } := by
    intro u
    cases v[3] <;> simp [State.clearOvr]
  simp only [State.writeStatus, hdone, herr, hovr]

/-- The low three bits of a word are not all 0 exactly where one of them is 1. -/
theorem and_seven_ne_zero (x : Word) : x &&& 7 ≠ 0 ↔ x[0] = true ∨ x[1] = true ∨ x[2] = true := by
  have h7 : (x &&& 7).toNat = x.toNat % 8 := Nat.and_two_pow_sub_one_eq_mod x.toNat 3
  rw [Ne, ← BitVec.toNat_inj, h7]
  simp only [word_getElem_eq_div_mod, beq_iff_eq, BitVec.ofNat_eq_ofNat, BitVec.toNat_ofNat]
  omega

theorem State.irq_iff :
    s.irq = true ↔
      (s.ieDone = true ∧ s.done = true) ∨ (s.ieErr = true ∧ s.err = true) ∨ (s.ieOvr = true ∧ s.ovr = true) := by
  simp [State.irq, or_assoc]

/-- R55 on the words of CTRL and STATUS: CTRL bit i enables STATUS bit i + 1. -/
theorem State.irq_iff_words : s.irq = true ↔ s.ctrlWord &&& (s.statusWord >>> 1) &&& 7 ≠ 0 := by
  rw [and_seven_ne_zero, State.irq_iff]
  simp

end

/-! ### The groups of fields that a command's writes leave alone -/

section
variable {s u : State} (h : Effect s u)
include h

theorem Effect.rst_eq : u.rst = s.rst := by rw [h.frame]

theorem Effect.ovr_eq : u.ovr = s.ovr := by rw [h.frame]

theorem Effect.error_fields :
    u.err = s.err ∧ u.ecode = s.ecode ∧ u.errcmd = s.errcmd ∧ u.failingWord = s.failingWord := by
  rw [h.frame]
  simp [State.failingWord]

theorem Effect.key_fields : u.keyHi = s.keyHi ∧ u.keyLo = s.keyLo ∧ u.klen = s.klen := by
  rw [h.frame]
  simp

theorem Effect.model_fields :
    u.cfg = s.cfg ∧ u.rst = s.rst ∧ u.schedule = s.schedule ∧ u.draws = s.draws ∧ u.port = s.port := by
  rw [h.frame]
  simp

theorem Effect.input_fields :
    u.fin = s.fin ∧ u.fkey = s.fkey ∧ u.cmd = s.cmd ∧ u.ieDone = s.ieDone ∧ u.ieErr = s.ieErr ∧ u.ieOvr = s.ieOvr := by
  rw [h.frame]
  simp

end

/-! ### How a step ends -/

/-- How a step from s can end (20_memory.md R89, R98, 40_command_cycle.md R143, 70_reset_and_hazards.md R320), with the
state it answers. -/
inductive Stepped (s : State) : State → Prop where
  /-- A host read: the port answers. -/
  | read (a : HostAddr) (x : Answer) (he : s.nextEvent = .host (.read a)) (hr : s.rst = false) :
      Stepped s (s.slot.answer x)
  /-- A host write to an address that names nothing: the port answers. -/
  | unmapped (a : HostAddr) (v : Word) (x : Answer) (he : s.nextEvent = .host (.write a v)) (hr : s.rst = false)
      (hg : target s.cfg a = none) : Stepped s (s.slot.answer x)
  /-- A host write to the input set while busy: it is dropped. -/
  | dropped (a : HostAddr) (v : Word) (g : Target) (x : Answer) (he : s.nextEvent = .host (.write a v))
      (hr : s.rst = false) (hg : target s.cfg a = some g) (hin : g.isInput = true) (hb : s.busy = true) :
      Stepped s (s.slot.setOvr.answer x)
  /-- A host write that is performed. -/
  | stored (a : HostAddr) (v : Word) (g : Target) (x : Answer) (he : s.nextEvent = .host (.write a v))
      (hr : s.rst = false) (hg : target s.cfg a = some g) (hb : ¬ (g.isInput = true ∧ s.busy = true)) :
      Stepped s ((s.slot.storeTarget v g).answer x)
  /-- An engine's turn without effect. -/
  | idle (he : s.nextEvent = .engine) (hi : s.rst = true ∨ s.pend = none) : Stepped s s.slot
  /-- An engine step whose command finishes. -/
  | finished (w : Word) (u : State) (he : s.nextEvent = .engine) (hp : s.pend = some w) (hr : s.rst = false)
      (hu : Effect s.slot u) : Stepped s u.finish
  /-- An engine step whose command fails. -/
  | failed (w : Word) (u : State) (e : ErrCode) (he : s.nextEvent = .engine) (hp : s.pend = some w)
      (hr : s.rst = false) (hu : Effect s.slot u) (hne : e ≠ .blockLength) : Stepped s (u.fail e)
  | assertReset (he : s.nextEvent = .assertReset) : Stepped s s.slot.assertReset
  | releaseReset (he : s.nextEvent = .releaseReset) : Stepped s s.slot.releaseReset

section
variable {s t : State}

theorem stepped_of_step (h : step s = .next t) : Stepped s t := by
  have engineStep : ∀ w, s.nextEvent = .engine → s.rst = false → s.pend = some w → Stepped s t := by
    intro w he hr hp
    obtain ⟨u, hu, rfl | ⟨e, hne, rfl⟩⟩ := engine_cases he hr hp h
    · exact .finished w u he hp hr hu
    · exact .failed w u e he hp hr hu hne
  rcases step_cases h with ⟨x, he, hr, rfl⟩ | ⟨he, hi, rfl⟩ | ⟨w, i, he, hr, hp, -, -⟩ | ⟨w, e, he, hr, hp, -, -⟩ |
      ⟨he, rfl⟩ | ⟨he, rfl⟩
  · cases x with
    | read a => exact .read a _ he hr
    | write a v =>
      rw [State.transact]
      rcases s.slot.hostWrite_cases a v with ⟨hg, hw⟩ | ⟨g, hg, hin, hb, hw⟩ | ⟨g, hg, hb, hw⟩ <;> rw [hw]
      · exact .unmapped a v _ he hr hg
      · exact .dropped a v g _ he hr hg hin hb
      · exact .stored a v g _ he hr hg hb
  · exact .idle he hi
  · exact engineStep w he hr hp
  · exact engineStep w he hr hp
  · exact .assertReset he
  · exact .releaseReset he

end

/-! ### The invariant -/

/-- While the reset input is released the held-at-reset clause of the invariant says nothing. -/
theorem State.resetOk_of_released {s : State} (hr : s.rst = false) : s.resetOk := fun h => by
  rw [hr] at h
  cases h

/-- A state at its reset values has the invariant, whatever the model's own fields are. -/
theorem Inv.of_eq_clear {s : State} (hc : s.cfg.wf) (h : s = s.clear) : Inv s := by
  refine ⟨hc, ?_, ?_, ?_, ?_, fun _ => h⟩
  · rw [h]; exact ⟨rfl, nofun⟩
  · rw [h]; exact ⟨fun _ => ⟨rfl, rfl⟩, nofun⟩
  · rw [h]; exact .inl ⟨rfl, rfl⟩
  · rw [h]; exact ⟨.nil, nofun⟩

/-- An error that can be raised has one of the codes of 60_exceptions.md R282. -/
theorem ErrCode.code_mem {e : ErrCode} (h : e ≠ .blockLength) : e.code ∈ [1, 3, 4, 5, 6] := by
  cases e with
  | blockLength => exact absurd rfl h
  | _ => decide

section
variable {s u : State}

/-- No command is pending while the reset input is asserted. -/
theorem Inv.released_of_pending {w : Word} (h : Inv s) (hp : s.pend = some w) : s.rst = false := by
  by_contra hr
  rw [h.reset (by simpa using hr)] at hp
  cases hp

theorem Inv.clear (h : Inv s) : Inv s.clear := .of_eq_clear h.cfg rfl

theorem Inv.assertReset (h : Inv s) : Inv s.assertReset := .of_eq_clear h.cfg rfl

theorem Inv.releaseReset (h : Inv s) : Inv s.releaseReset :=
  ⟨h.cfg, h.pending, h.errors, h.padres, h.buf, State.resetOk_of_released rfl⟩

theorem Inv.slot (h : Inv s) : Inv s.slot :=
  ⟨h.cfg, h.pending, h.errors, h.padres, h.buf, fun hr => congrArg State.slot (h.reset hr)⟩

theorem Inv.answer (h : Inv s) (x : Answer) : Inv (s.answer x) :=
  ⟨h.cfg, h.pending, h.errors, h.padres, h.buf, fun hr => congrArg (State.answer · x) (h.reset hr)⟩

/-! While the reset input is released, the operations of a host write and of the engine keep the invariant. -/

variable (h : Inv s) (hr : s.rst = false)
include h hr

theorem Inv.setOvr : Inv s.setOvr :=
  ⟨h.cfg, h.pending, h.errors, h.padres, h.buf, State.resetOk_of_released hr⟩

theorem Inv.setEnables (v : Word) : Inv (s.setEnables v) :=
  ⟨h.cfg, h.pending, h.errors, h.padres, h.buf, State.resetOk_of_released hr⟩

theorem Inv.accept (w : Word) : Inv (s.accept w) :=
  ⟨h.cfg, ⟨rfl, fun w' hw => ⟨by simpa using hw, rfl⟩⟩, h.errors, h.padres, h.buf, State.resetOk_of_released hr⟩

theorem Inv.finish : Inv s.finish :=
  ⟨h.cfg, ⟨rfl, nofun⟩, h.errors, h.padres, h.buf, State.resetOk_of_released hr⟩

theorem Inv.fail {e : ErrCode} (hne : e ≠ .blockLength) : Inv (s.fail e) := by
  have code : (s.fail e).ecode ∈ [1, 3, 4, 5, 6] := by
    rw [State.fail_ecode]
    by_cases herr : s.err = true
    · rw [if_pos herr]; exact h.errors.2 herr
    · rw [if_neg herr]; exact ErrCode.code_mem hne
  exact ⟨h.cfg, ⟨rfl, nofun⟩, ⟨nofun, fun _ => code⟩, h.padres, h.buf,
    State.resetOk_of_released hr⟩

/-- The writes of a command keep the invariant. -/
theorem Inv.effect (hu : Effect s u) : Inv u := by
  have hcfg : u.cfg = s.cfg := hu.model_fields.1
  refine ⟨hcfg ▸ h.cfg, ?_, ?_, hu.padres h.padres, ⟨hu.wf h.buf.1, ?_⟩,
    State.resetOk_of_released (hu.rst_eq.trans hr)⟩
  · rw [hu.frame]; exact h.pending
  · rw [hu.frame]; exact h.errors
  · rw [hcfg]; exact hu.below h.cfg h.buf.2

theorem Inv.writeStatus (v : Word) : Inv (s.writeStatus v) := by
  rw [State.writeStatus_eq]
  refine ⟨h.cfg, ⟨h.pending.1, fun w hw => ?_⟩, ?_, h.padres, h.buf, State.resetOk_of_released hr⟩
  · obtain ⟨hc, hd⟩ := h.pending.2 w hw
    exact ⟨hc, by simp [hd]⟩
  · cases v[2] with
    | true => exact ⟨fun _ => ⟨rfl, rfl⟩, by simp⟩
    | false => simpa using h.errors

theorem Inv.writeCtrl (v : Word) : Inv (s.writeCtrl v) := by
  unfold State.writeCtrl
  split
  · exact h.clear
  · exact h.setEnables hr v

/-- A word stored in the window lies inside BUF_BYTES, which is a multiple of 8. -/
theorem Inv.storeWindow {a : HostAddr} {o : Nat} (hg : target s.cfg a = some (.window o)) (v : Word) :
    Inv (s.storeTarget v (.window o)) := by
  obtain ⟨ha, ho, hb⟩ := target_eq_window.mp hg
  have hfits : o + 4 ≤ s.cfg.bufBytes := by
    have h8 := h.cfg.1
    rw [hb, bufBase] at ha
    omega
  exact ⟨h.cfg, h.pending, h.errors, h.padres,
    ⟨Memory.wf_writeWord h.buf.1 o v, Memory.below_writeWord h.buf.2 hfits v⟩, State.resetOk_of_released hr⟩

/-- A host write that is performed keeps the invariant. -/
theorem Inv.storeTarget {a : HostAddr} {g : Target} (hg : target s.cfg a = some g) (v : Word) :
    Inv (s.storeTarget v g) := by
  cases g with
  | window o => exact h.storeWindow hr hg v
  | reg r =>
    cases r with
    | ctrl => exact h.writeCtrl hr v
    | status => exact h.writeStatus hr v
    | cmd => exact h.accept hr v
    | id => exact h
    | param => exact h
    | errcmd => exact h
    | fout => exact h
    | padres => exact h
    | _ => exact ⟨h.cfg, h.pending, h.errors, h.padres, h.buf, State.resetOk_of_released hr⟩

end

/-- Settles O6: each way a step ends keeps the invariant. -/
theorem everyStepKeepsTheInvariant : Obligations.EveryStepKeepsTheInvariant := by
  intro s t h hstep
  cases stepped_of_step hstep with
  | read a x he hr => exact h.slot.answer x
  | unmapped a v x he hr hg => exact h.slot.answer x
  | dropped a v g x he hr hg hin hb => exact (h.slot.setOvr hr).answer x
  | stored a v g x he hr hg hb => exact (h.slot.storeTarget hr hg v).answer x
  | idle he hi => exact h.slot
  | finished w u he hp hr hu => exact (h.slot.effect hr hu).finish (hu.rst_eq.trans hr)
  | failed w u e he hp hr hu hne => exact (h.slot.effect hr hu).fail (hu.rst_eq.trans hr) hne
  | assertReset he => exact h.slot.assertReset
  | releaseReset he => exact h.slot.releaseReset

/-- Settles O5: the reset state is at its reset values. -/
theorem resetStateHasTheInvariant : Obligations.ResetStateHasTheInvariant :=
  Inv.of_eq_clear (by decide) rfl

/-! ### The registers on the host port -/

section
variable (s : State)

/-- A register outside the input set is written whether or not a command is pending. -/
theorem State.hostWrite_of_not_input {r : Reg} (h : (Target.reg r).isInput = false) (v : Word) :
    s.hostWrite r.offset v = (s.storeTarget v (.reg r), .okay) :=
  s.hostWrite_reg r v (by simp [h])

/-- A register outside the result set is read whether or not a command is pending. -/
theorem State.hostRead_of_not_result {r : Reg} (h : (Target.reg r).isResult = false) :
    s.hostRead r.offset = (s.regValue r, .okay) :=
  s.hostRead_reg r (by simp [h])

theorem State.hostRead_id : s.hostRead 0x000 = (0x46434331, .okay) := s.hostRead_of_not_result (r := .id) rfl

theorem State.hostRead_param : s.hostRead 0x004 = (paramWord s.cfg, .okay) :=
  s.hostRead_of_not_result (r := .param) rfl

theorem State.hostRead_ctrl : s.hostRead 0x008 = (s.ctrlWord, .okay) := s.hostRead_of_not_result (r := .ctrl) rfl

theorem State.hostRead_status : s.hostRead 0x00C = (s.statusWord, .okay) :=
  s.hostRead_of_not_result (r := .status) rfl

theorem State.hostWrite_ctrl (v : Word) : s.hostWrite 0x008 v = (s.writeCtrl v, .okay) :=
  s.hostWrite_of_not_input (r := .ctrl) rfl v

theorem State.hostWrite_status (v : Word) : s.hostWrite 0x00C v = (s.writeStatus v, .okay) :=
  s.hostWrite_of_not_input (r := .status) rfl v

/-- A soft reset (R36). -/
theorem State.hostWrite_softReset {v : Word} (hv : v[31] = true) : s.hostWrite 0x008 v = (s.clear, .okay) := by
  rw [State.hostWrite_ctrl, State.writeCtrl, if_pos hv]

/-- A CTRL write that is no soft reset (R35). -/
theorem State.hostWrite_enables {v : Word} (hv : v[31] = false) :
    s.hostWrite 0x008 v = (s.setEnables v, .okay) := by
  rw [State.hostWrite_ctrl, State.writeCtrl, if_neg (by simp [hv])]

end

/-- PARAM reads the same in two states of one BUF_BYTES. -/
theorem State.hostRead_param_congr {s t : State} (h : t.cfg = s.cfg) : t.hostRead 0x004 = s.hostRead 0x004 := by
  rw [State.hostRead_param, State.hostRead_param, h]

/-- Settles O18: the number of STATUS, and the write-one-to-clear write field by field with its bits as numbers. -/
theorem statusWriteIsWriteOneToClear : Obligations.StatusWriteIsWriteOneToClear := by
  intro s v
  constructor
  · rw [State.hostRead_status, State.statusWord_toNat]
  · rw [State.hostWrite_status, State.writeStatus_eq]
    simp [word_getElem_eq_div_mod]

/-- Settles O19: a CTRL word below 2^31 has bit 31 = 0, so the write sets the enables. -/
theorem ctrlWriteSetsTheEnables : Obligations.CtrlWriteSetsTheEnables := by
  refine ⟨fun s => by rw [State.hostRead_ctrl, State.ctrlWord_toNat], fun s v hv => ?_⟩
  have h31 : v[31] = false := by
    rw [word_getElem_eq_div_mod, beq_eq_false_iff_ne]
    omega
  rw [State.hostWrite_enables s h31]
  constructor
  · simp [State.setEnables, word_getElem_eq_div_mod]
  · rw [State.irq_iff]
    simp [word_getElem_eq_div_mod]

/-- Settles O23: IRQ on the flags and on the words of CTRL and STATUS. -/
theorem irqIsTheEnabledPendingFlags : Obligations.IrqIsTheEnabledPendingFlags := by
  refine ⟨State.irq_iff, fun s => ?_, rfl⟩
  rw [State.hostRead_ctrl, State.hostRead_status, State.irq_iff_words]

/-! ### The reset values (10_state.md R36, R58) -/

theorem State.clear_atReset (s : State) : AtReset s.clear := by
  simp [AtReset, State.irq]

/-- After a reset CTRL reads 0 (R36). -/
theorem State.hostRead_ctrl_clear (s : State) : s.clear.hostRead 0x008 = (0, .okay) := by
  rw [State.hostRead_ctrl]
  simp [State.ctrlWord, flagBit]

/-- The reset values do not name the reset input's level, which is all that asserting it sets besides. -/
theorem State.assertReset_atReset (s : State) : AtReset s.assertReset := s.clear_atReset

/-- Settles O20: a CTRL word from 2^31 on has bit 31 = 1, so the write is a soft reset. -/
theorem softResetDiscardsThePendingCommand : Obligations.SoftResetDiscardsThePendingCommand := by
  intro s v hv
  have h31 : v[31] = true := by
    rw [word_getElem_eq_div_mod, beq_iff_eq]
    have := v.isLt
    omega
  exact ⟨s.clear, s.hostWrite_softReset h31, s.clear_atReset, s.hostRead_ctrl_clear, rfl, rfl, rfl, rfl⟩

/-- Settles O7: State.reset, the reset input and a soft reset all give the cleared state. -/
theorem resetValuesHoldAfterEveryReset : Obligations.ResetValuesHoldAfterEveryReset := by
  refine ⟨State.reset.clear_atReset, fun s => ?_, fun s v hv => ?_⟩
  · exact ⟨s.assertReset_atReset, State.hostRead_id _, State.hostRead_param_congr rfl⟩
  · rw [State.hostWrite_softReset s hv]
    exact ⟨s.clear_atReset, State.hostRead_id _, State.hostRead_param_congr rfl⟩

/-- Settles O15: the five registers are outside the input set, and a write that is performed on them stores nothing. -/
theorem readOnlyRegistersIgnoreWrites : Obligations.ReadOnlyRegistersIgnoreWrites := by
  intro s a v ha
  simp only [List.mem_cons, List.not_mem_nil, or_false] at ha
  rcases ha with rfl | rfl | rfl | rfl | rfl
  · exact s.hostWrite_of_not_input (r := .id) rfl v
  · exact s.hostWrite_of_not_input (r := .param) rfl v
  · exact s.hostWrite_of_not_input (r := .errcmd) rfl v
  · exact s.hostWrite_of_not_input (r := .fout) rfl v
  · exact s.hostWrite_of_not_input (r := .padres) rfl v

/-! ### What the events of a host write are -/

section
variable {s : State} {a : HostAddr} {v : Word}

/-- A host write that names a register is a write to its offset. -/
theorem State.nextEvent_write_reg {r : Reg} (he : s.nextEvent = .host (.write a v))
    (hg : target s.cfg a = some (.reg r)) : s.nextEvent = .host (.write r.offset v) := by
  rw [he, target_eq_reg.mp hg]

/-- A CTRL write with bit 31 = 1 resets every register (10_state.md R36). -/
theorem resetEvent_of_ctrl (he : s.nextEvent = .host (.write a v)) (hg : target s.cfg a = some (.reg .ctrl))
    (hv : v[31] = true) : resetEvent s.nextEvent :=
  .inr ⟨v, s.nextEvent_write_reg he hg, hv⟩

theorem resetEvent_of_assertReset (he : s.nextEvent = .assertReset) : resetEvent s.nextEvent := .inl he

end

/-- The input set of 10_state.md R62 as its list of offsets. -/
theorem Reg.isInput_iff (r : Reg) :
    (Target.reg r).isInput = true ↔
      r.offset.toNat = 0x10 ∨ (0x18 ≤ r.offset.toNat ∧ r.offset.toNat ≤ 0x44) := by
  cases r <;> decide

/-- The input set by addresses and by what they name. -/
theorem inInputSet_iff {c : Config} {a : HostAddr} :
    inInputSet c a ↔ ∃ g, target c a = some g ∧ g.isInput = true := by
  unfold inInputSet inWindow
  cases hg : target c a with
  | none =>
    have := target_eq_none hg
    unfold bufBase at this
    simp only [reduceCtorEq, false_and, exists_false, iff_false]
    omega
  | some g =>
    simp only [Option.some.injEq, exists_eq_left']
    cases g with
    | window o =>
      have := target_eq_window.mp hg
      unfold bufBase at this
      simp only [Target.isInput, iff_true]
      omega
    | reg r =>
      rw [target_eq_reg.mp hg, Reg.isInput_iff]
      have := r.offset_lt
      have := r.offset_mod
      omega

/-! ### What a step can do to each register group -/

section
variable {s t : State}

/-- What a step does to ERR, ECODE and ERRCMD: nothing, an acknowledgement, a reset, or a failure of the pending
command with first-error capture (10_state.md R40, R42, R44, 60_exceptions.md R281, R287). -/
theorem step_err_cases (h : step s = .next t) :
    (t.err = s.err ∧ t.ecode = s.ecode ∧ t.errcmd = s.errcmd) ∨
    (((∃ v : Word, s.nextEvent = .host (.write 0x00C v) ∧ v[2] = true) ∨ resetEvent s.nextEvent) ∧
      t.err = false ∧ t.ecode = 0 ∧ t.errcmd = 0) ∨
    (∃ w, s.nextEvent = .engine ∧ s.pend = some w ∧ s.err = false ∧ t.err = true ∧ t.errcmd = w) := by
  cases stepped_of_step h with
  | read a x he hr => exact .inl ⟨rfl, rfl, rfl⟩
  | unmapped a v x he hr hg => exact .inl ⟨rfl, rfl, rfl⟩
  | dropped a v g x he hr hg hin hb => exact .inl ⟨rfl, rfl, rfl⟩
  | stored a v g x he hr hg hb =>
    rcases s.slot.storeTarget_err_cases v g with hkeep | ⟨rfl, hv, hclr⟩ | ⟨rfl, hv, hclr⟩
    · exact .inl hkeep
    · exact .inr (.inl ⟨.inl ⟨v, s.nextEvent_write_reg he hg, hv⟩, hclr⟩)
    · refine .inr (.inl ⟨.inr (resetEvent_of_ctrl he hg hv), ?_⟩)
      simp [hclr]
  | idle he hi => exact .inl ⟨rfl, rfl, rfl⟩
  | finished w u he hp hr hu =>
    obtain ⟨herr, hcode, hcmd, -⟩ := hu.error_fields
    exact .inl ⟨herr, hcode, hcmd⟩
  | failed w u e he hp hr hu hne =>
    obtain ⟨herr, hcode, hcmd, hword⟩ := hu.error_fields
    cases hs : s.err with
    | true => exact .inl (by simp [herr, hs, hcode, hcmd])
    | false =>
      have hw : s.slot.failingWord = w := by simp [State.failingWord, hp]
      exact .inr (.inr ⟨w, he, hp, rfl, rfl, by simp [herr, hs, hword, hw]⟩)
  | assertReset he => exact .inr (.inl ⟨.inr (resetEvent_of_assertReset he), rfl, rfl, rfl⟩)
  | releaseReset he => exact .inl ⟨rfl, rfl, rfl⟩

/-- What a step does to OVR: nothing, an acknowledgement, a reset, or a dropped write (10_state.md R41). -/
theorem step_ovr_cases (h : step s = .next t) :
    t.ovr = s.ovr ∨
    (((∃ v : Word, s.nextEvent = .host (.write 0x00C v) ∧ v[3] = true) ∨ resetEvent s.nextEvent) ∧ t.ovr = false) ∨
    (s.busy = true ∧ (∃ a v, s.nextEvent = .host (.write a v) ∧ inInputSet s.cfg a) ∧ t.ovr = true) := by
  cases stepped_of_step h with
  | read a x he hr => exact .inl rfl
  | unmapped a v x he hr hg => exact .inl rfl
  | dropped a v g x he hr hg hin hb => exact .inr (.inr ⟨hb, ⟨a, v, he, inInputSet_iff.mpr ⟨g, hg, hin⟩⟩, rfl⟩)
  | stored a v g x he hr hg hb =>
    rcases s.slot.storeTarget_ovr_cases v g with hkeep | ⟨rfl, hv, hclr⟩ | ⟨rfl, hv, hclr⟩
    · exact .inl hkeep
    · exact .inr (.inl ⟨.inl ⟨v, s.nextEvent_write_reg he hg, hv⟩, hclr⟩)
    · exact .inr (.inl ⟨.inr (resetEvent_of_ctrl he hg hv), by simp [hclr]⟩)
  | idle he hi => exact .inl rfl
  | finished w u he hp hr hu => exact .inl hu.ovr_eq
  | failed w u e he hp hr hu hne => exact .inl hu.ovr_eq
  | assertReset he => exact .inr (.inl ⟨.inr (resetEvent_of_assertReset he), rfl⟩)
  | releaseReset he => exact .inl rfl

/-- A host write to the input set while busy is dropped and sets OVR (20_memory.md R92). -/
theorem State.hostWrite_of_busy_input {a : HostAddr} (hb : s.busy = true) (hin : inInputSet s.cfg a) (v : Word) :
    s.hostWrite a v = (s.setOvr, .okay) := by
  obtain ⟨g, hg, hgin⟩ := inInputSet_iff.mp hin
  simp [State.hostWrite, hg, hgin, hb]

/-- The step of a busy write to the input set does nothing else (R41). -/
theorem step_of_busy_input_write {a : HostAddr} {v : Word} (hb : s.busy = true)
    (he : s.nextEvent = .host (.write a v)) (hin : inInputSet s.cfg a) (h : step s = .next t) :
    t = s.slot.setOvr.answer (.write .okay) := by
  rcases step_cases h with ⟨x, hx, -, rfl⟩ | ⟨hx, -⟩ | ⟨w, i, hx, -⟩ | ⟨w, e, hx, -⟩ | ⟨hx, -⟩ | ⟨hx, -⟩ <;>
    cases he.symm.trans hx
  rw [State.transact, State.hostWrite_of_busy_input (s := s.slot) hb hin]

/-- What a step does to DONE: nothing, a completion sets it, or an acceptance, an acknowledgement or a reset clears it
(10_state.md R39). -/
theorem step_done_cases (h : step s = .next t) :
    t.done = s.done ∨
    (s.nextEvent = .engine ∧ s.pend ≠ none ∧ t.done = true) ∨
    (((s.busy = false ∧ ∃ w, s.nextEvent = .host (.write 0x010 w)) ∨
      (∃ v : Word, s.nextEvent = .host (.write 0x00C v) ∧ v[1] = true) ∨ resetEvent s.nextEvent) ∧
      t.done = false) := by
  cases stepped_of_step h with
  | read a x he hr => exact .inl rfl
  | unmapped a v x he hr hg => exact .inl rfl
  | dropped a v g x he hr hg hin hb => exact .inl rfl
  | stored a v g x he hr hg hb =>
    rcases s.slot.storeTarget_done_cases v g with hkeep | ⟨rfl, hv, hclr⟩ | ⟨rfl, hacc⟩ | ⟨rfl, hv, hclr⟩
    · exact .inl hkeep
    · exact .inr (.inr ⟨.inr (.inl ⟨v, s.nextEvent_write_reg he hg, hv⟩), hclr⟩)
    · have hidle : s.busy = false := by simpa [Target.isInput] using hb
      exact .inr (.inr ⟨.inl ⟨hidle, v, s.nextEvent_write_reg he hg⟩, by simp [hacc]⟩)
    · exact .inr (.inr ⟨.inr (.inr (resetEvent_of_ctrl he hg hv)), by simp [hclr]⟩)
  | idle he hi => exact .inl rfl
  | finished w u he hp hr hu => exact .inr (.inl ⟨he, by simp [hp], rfl⟩)
  | failed w u e he hp hr hu hne => exact .inr (.inl ⟨he, by simp [hp], rfl⟩)
  | assertReset he => exact .inr (.inr ⟨.inr (.inr (resetEvent_of_assertReset he)), rfl⟩)
  | releaseReset he => exact .inl rfl

/-- The engine's turn with a command pending completes it (40_command_cycle.md R143, R145). -/
theorem step_done_of_pending {w : Word} (hi : Inv s) (hp : s.pend = some w) (he : s.nextEvent = .engine)
    (h : step s = .next t) : t.done = true := by
  obtain ⟨u, -, rfl | ⟨e, -, rfl⟩⟩ := engine_cases he (hi.released_of_pending hp) hp h
  · rfl
  · rfl

/-- What a step does to KEY_HI, KEY_LO and KLEN: nothing but by a write to the register while idle, or by a reset
(10_state.md R45, R47). -/
theorem step_key_cases (h : step s = .next t) :
    (t.keyHi = s.keyHi ∨ (s.busy = false ∧ s.nextEvent = .host (.write 0x020 t.keyHi)) ∨ resetEvent s.nextEvent) ∧
    (t.keyLo = s.keyLo ∨ (s.busy = false ∧ s.nextEvent = .host (.write 0x024 t.keyLo)) ∨ resetEvent s.nextEvent) ∧
    (t.klen = s.klen ∨ (s.busy = false ∧ ∃ v, s.nextEvent = .host (.write 0x018 v)) ∨
      resetEvent s.nextEvent) := by
  cases stepped_of_step h with
  | read a x he hr => exact ⟨.inl rfl, .inl rfl, .inl rfl⟩
  | unmapped a v x he hr hg => exact ⟨.inl rfl, .inl rfl, .inl rfl⟩
  | dropped a v g x he hr hg hin hb => exact ⟨.inl rfl, .inl rfl, .inl rfl⟩
  | stored a v g x he hr hg hb =>
    have hidle : g.isInput = true → s.busy = false := by simpa using hb
    obtain ⟨hhi, hlo, hlen⟩ := s.slot.storeTarget_key_cases v g
    refine ⟨?_, ?_, ?_⟩
    · rcases hhi with hkeep | ⟨rfl, hv⟩ | ⟨rfl, hv⟩
      · exact .inl hkeep
      · exact .inr (.inl ⟨hidle rfl, s.nextEvent_write_reg he hg⟩)
      · exact .inr (.inr (resetEvent_of_ctrl he hg hv))
    · rcases hlo with hkeep | ⟨rfl, hv⟩ | ⟨rfl, hv⟩
      · exact .inl hkeep
      · exact .inr (.inl ⟨hidle rfl, s.nextEvent_write_reg he hg⟩)
      · exact .inr (.inr (resetEvent_of_ctrl he hg hv))
    · rcases hlen with hkeep | rfl | ⟨rfl, hv⟩
      · exact .inl hkeep
      · exact .inr (.inl ⟨hidle rfl, v, s.nextEvent_write_reg he hg⟩)
      · exact .inr (.inr (resetEvent_of_ctrl he hg hv))
  | idle he hi => exact ⟨.inl rfl, .inl rfl, .inl rfl⟩
  | finished w u he hp hr hu =>
    obtain ⟨hhi, hlo, hlen⟩ := hu.key_fields
    exact ⟨.inl hhi, .inl hlo, .inl hlen⟩
  | failed w u e he hp hr hu hne =>
    obtain ⟨hhi, hlo, hlen⟩ := hu.key_fields
    exact ⟨.inl hhi, .inl hlo, .inl hlen⟩
  | assertReset he =>
    have hreset := resetEvent_of_assertReset he
    exact ⟨.inr (.inr hreset), .inr (.inr hreset), .inr (.inr hreset)⟩
  | releaseReset he => exact ⟨.inl rfl, .inl rfl, .inl rfl⟩

/-- No step changes BUF_BYTES (00_scope.md R6). -/
theorem step_cfg (h : step s = .next t) : t.cfg = s.cfg := by
  cases stepped_of_step h with
  | stored a v g x he hr hg hb => exact (s.slot.storeTarget_frame v g).1
  | finished w u he hp hr hu => exact hu.model_fields.1
  | failed w u e he hp hr hu hne => exact hu.model_fields.1
  | read | unmapped | dropped | idle | assertReset | releaseReset => rfl

end

/-- Settles O29, by the ways a step can change the error registers. Where ERR stays 0 across an acknowledgement or a
reset, the invariant says that ECODE and ERRCMD were 0 before. -/
theorem errIsStickyUntilAcknowledged : Obligations.ErrIsStickyUntilAcknowledged := by
  intro s t hi h
  rcases step_err_cases h with ⟨herr, hcode, hcmd⟩ | ⟨hev, herr, hcode, hcmd⟩ | ⟨w, he, hp, hs, herr, hcmd⟩
  · refine ⟨fun h0 h1 => ?_, fun h1 h0 => ?_, fun _ => ⟨hcode, hcmd⟩⟩
    · simp [herr, h0] at h1
    · simp [herr, h1] at h0
  · refine ⟨fun _ h1 => ?_, fun _ _ => hev, fun heq => ?_⟩
    · simp [herr] at h1
    · obtain ⟨hcode0, hcmd0⟩ := hi.errors.1 (heq.trans herr)
      exact ⟨hcode.trans hcode0.symm, hcmd.trans hcmd0.symm⟩
  · refine ⟨fun _ _ => ⟨he, by simp [hp], by rw [hcmd, hp]⟩, fun h1 => ?_, fun heq => ?_⟩
    · simp [hs] at h1
    · simp [hs, herr] at heq

/-- Settles O30, by the ways a step can change OVR. -/
theorem ovrRecordsDroppedWrites : Obligations.OvrRecordsDroppedWrites := by
  intro s t h
  refine ⟨?_, fun a v hb he hin => ?_, ?_⟩
  · rcases step_ovr_cases h with hkeep | ⟨-, hclr⟩ | ⟨hb, hev, -⟩
    · exact fun h0 h1 => by simp [hkeep, h0] at h1
    · exact fun _ h1 => by simp [hclr] at h1
    · exact fun _ _ => ⟨hb, hev⟩
  · rw [step_of_busy_input_write hb he hin h]
    exact ⟨rfl, rfl, rfl⟩
  · rcases step_ovr_cases h with hkeep | ⟨hev, -⟩ | ⟨-, -, hset⟩
    · exact fun h1 h0 => by simp [hkeep, h1] at h0
    · exact fun _ _ => hev
    · exact fun _ h0 => by simp [hset] at h0

/-- Settles O31, by the ways a step can change DONE. That an acceptance clears it is the invariant of the next state:
DONE is 0 while a command is pending. -/
theorem doneIsSetByEveryCompletion : Obligations.DoneIsSetByEveryCompletion := by
  intro s t hi h
  refine ⟨fun w hp he => step_done_of_pending hi hp he h, fun _ hp => ?_, ?_, ?_⟩
  · obtain ⟨w, hw⟩ := Option.ne_none_iff_exists'.mp hp
    exact ((everyStepKeepsTheInvariant s t hi h).pending.2 w hw).2
  · rcases step_done_cases h with hkeep | ⟨he, hp, -⟩ | ⟨-, hclr⟩
    · exact fun h0 h1 => by simp [hkeep, h0] at h1
    · exact fun _ _ => ⟨he, hp⟩
    · exact fun _ h1 => by simp [hclr] at h1
  · rcases step_done_cases h with hkeep | ⟨-, -, hset⟩ | ⟨hev, -⟩
    · exact fun h1 h0 => by simp [hkeep, h1] at h0
    · exact fun _ h0 => by simp [hset] at h0
    · exact fun _ _ => hev

/-- Settles O32, by the ways a step can change the key. -/
theorem onlyHostWritesChangeTheKey : Obligations.OnlyHostWritesChangeTheKey := by
  intro s t h
  obtain ⟨hhi, hlo, hlen⟩ := step_key_cases h
  exact ⟨hhi.resolve_left, hlo.resolve_left, hlen.resolve_left⟩

/-- Settles O33: ID is a constant and PARAM a function of BUF_BYTES, which no step changes. -/
theorem idAndParamNeverChange : Obligations.IdAndParamNeverChange := by
  intro s t h
  exact ⟨step_cfg h, by rw [State.hostRead_id, State.hostRead_id], State.hostRead_param_congr (step_cfg h)⟩

/-! ### What the commands leave alone (10_state.md R60, R61) -/

section
variable {i : Instr} {s t : State}

/-- The registers that no command writes. -/
theorem exec_keeps_inputs (h : exec i s = .next t) :
    t.keyHi = s.keyHi ∧ t.keyLo = s.keyLo ∧ t.klen = s.klen ∧ t.fin = s.fin ∧ t.fkey = s.fkey ∧ t.cmd = s.cmd ∧
      t.ovr = s.ovr ∧ t.ieDone = s.ieDone ∧ t.ieErr = s.ieErr ∧ t.ieOvr = s.ieOvr := by
  obtain ⟨u, hu, hx | ⟨e, -, hx⟩⟩ := exec_cases i s <;> cases hx.symm.trans h
  all_goals
    obtain ⟨hhi, hlo, hlen⟩ := hu.key_fields
    obtain ⟨hfin, hfkey, hcmd, henables⟩ := hu.input_fields
    exact ⟨hhi, hlo, hlen, hfin, hfkey, hcmd, hu.ovr_eq, henables⟩

/-- The model's own fields, which no command writes. -/
theorem exec_keeps_model_fields (h : exec i s = .next t) :
    t.cfg = s.cfg ∧ t.rst = s.rst ∧ t.schedule = s.schedule ∧ t.draws = s.draws ∧ t.port = s.port := by
  obtain ⟨u, hu, hx | ⟨e, -, hx⟩⟩ := exec_cases i s <;> cases hx.symm.trans h
  · exact hu.model_fields
  · exact hu.model_fields

theorem execKeyexp_frame (h : execKeyexp s = .next t) :
    t.dataL = s.dataL ∧ t.dataR = s.dataR ∧ t.fout = s.fout ∧ t.plen = s.plen ∧ t.vcnt = s.vcnt ∧
      t.msglen = s.msglen ∧ t.buf = s.buf := by
  by_cases hk : s.keyValid
  · cases (execKeyexp_of_valid hk).symm.trans h
    simp
  · cases (execKeyexp_of_invalid hk).symm.trans h
    simp

theorem execUnpadblk_frame (h : execUnpadblk s = .next t) :
    t.rk = s.rk ∧ t.dataL = s.dataL ∧ t.dataR = s.dataR ∧ t.fout = s.fout ∧ t.msglen = s.msglen ∧ t.buf = s.buf := by
  cases hp : padCheck (blockByte s.block) 8 with
  | some p =>
    cases (execUnpadblk_of_some hp).symm.trans h
    simp
  | none =>
    cases (execUnpadblk_of_none hp).symm.trans h
    simp

theorem execEncmsg_frame (h : execEncmsg s = .next t) :
    t.dataL = s.dataL ∧ t.dataR = s.dataR ∧ t.fout = s.fout ∧ t.plen = s.plen ∧ t.vcnt = s.vcnt := by
  by_cases hk : s.keyValid
  · rcases Nat.lt_or_ge s.msglen.toNat s.cfg.bufBytes with hn | hn
    · cases (execEncmsg_of_ok hk hn).symm.trans h
      simp
    · cases (execEncmsg_of_long hk hn).symm.trans h
      simp
  · cases (execEncmsg_of_invalid hk).symm.trans h
    simp

theorem execDecmsg_frame (h : execDecmsg s = .next t) :
    t.dataL = s.dataL ∧ t.dataR = s.dataR ∧ t.fout = s.fout := by
  rcases execDecmsg_cases s with h8 | ⟨h8, hn⟩ | ⟨h8, hn, hk⟩ | ⟨h8, hn, hk⟩
  · cases (execDecmsg_of_length h8).symm.trans h
    simp
  · cases (execDecmsg_of_long h8 hn).symm.trans h
    simp
  · cases (execDecmsg_of_invalid h8 hn hk).symm.trans h
    simp
  · cases hp : padCheck (s.decryptedBuf.read s.draws) s.msglen.toNat with
    | some p =>
      cases (execDecmsg_of_some h8 hn hk hp).symm.trans h
      simp
    | none =>
      cases (execDecmsg_of_none h8 hn hk hp).symm.trans h
      simp

end

/-- Settles O56: the inputs and the model's own fields by what every command's writes are, the result registers by the
frame of each command. -/
theorem commandsWriteOnlyTheirResults : Obligations.CommandsWriteOnlyTheirResults := by
  intro i s t h
  refine ⟨exec_keeps_inputs h, exec_keeps_model_fields h, ?_⟩
  obtain ⟨-, -, -, hdraws, -⟩ := exec_keeps_model_fields h
  cases i with
  | nop => cases h; simp
  | encblk => cases h; simp
  | decblk => cases h; simp
  | feval n => cases h; simp
  | padblk c => cases h; simp
  | keyexp =>
    obtain ⟨hl, hrt, hfout, hplen, hvcnt, hlen, hbuf⟩ := execKeyexp_frame h
    simp [hl, hrt, hfout, hplen, hvcnt, hlen, hbuf, hdraws, State.bufByte]
  | unpadblk =>
    obtain ⟨hrk, hl, hrt, hfout, hlen, hbuf⟩ := execUnpadblk_frame h
    simp [hrk, hl, hrt, hfout, hlen, hbuf, hdraws, State.bufByte]
  | encmsg =>
    obtain ⟨hl, hrt, hfout, hplen, hvcnt⟩ := execEncmsg_frame h
    simp [hl, hrt, hfout, hplen, hvcnt]
  | decmsg =>
    obtain ⟨hl, hrt, hfout⟩ := execDecmsg_frame h
    simp [hl, hrt, hfout]

end Sys2Proof.Machine

namespace Sys2Proof.Machine

/-! ## The host port's rules: what an address names, what a read gives and what a write does

Proofs of the statements on 20_memory.md. A transaction is a function of what its address names (`target`), so the
address ranges of the statements are turned into targets once, and each way a read or a write can end has one rule. -/

/-! ### The address ranges as targets (20_memory.md R80, R90, 10_state.md R62) -/

theorem Reg.offset_injective : Function.Injective Reg.offset := fun q r h =>
  Option.some.inj (by rw [← Reg.ofOffset_offset q, h, Reg.ofOffset_offset])

section
variable {c : Config} {a : HostAddr}

/-- The three ranges of R90 are exactly the addresses that name nothing. -/
theorem target_eq_none_iff :
    target c a = none ↔
      a.toNat % 4 ≠ 0 ∨ (0x050 ≤ a.toNat ∧ a.toNat ≤ 0x0FFF) ∨ 0x1000 + c.bufBytes ≤ a.toNat := by
  constructor
  · intro hn
    have hrange := target_eq_none hn
    unfold bufBase at hrange
    omega
  · intro h
    cases hg : target c a with
    | none => rfl
    | some g =>
      cases g with
      | window o =>
        have hwin := target_eq_window.mp hg
        unfold bufBase at hwin
        omega
      | reg r =>
        rw [target_eq_reg.mp hg] at h
        have := r.offset_lt
        have := r.offset_mod
        omega

/-- An aligned address of the register block or of the window names something. -/
theorem exists_target_of_mapped (ha : a.toNat % 4 = 0) (hm : a.toNat ≤ 0x04F ∨ inWindow c a) :
    ∃ g, target c a = some g := by
  refine Option.ne_none_iff_exists'.mp fun hn => ?_
  have hrange := target_eq_none_iff.mp hn
  unfold inWindow at hm
  omega

/-- An aligned address of the register block is a register's offset, whatever BUF_BYTES is. -/
theorem exists_reg_of_le (ha : a.toNat % 4 = 0) (hle : a.toNat ≤ 0x04F) : ∃ r : Reg, a = r.offset := by
  obtain ⟨g, hg⟩ := exists_target_of_mapped (c := Config.standard) ha (.inl hle)
  cases g with
  | reg r => exact ⟨r, target_eq_reg.mp hg⟩
  | window o =>
    have hwin := target_eq_window.mp hg
    unfold bufBase at hwin
    omega

theorem target_of_inWindow (ha : a.toNat % 4 = 0) (hw : inWindow c a) :
    target c a = some (.window (a.toNat - 0x1000)) := by
  unfold inWindow at hw
  refine target_eq_window.mpr ⟨ha, ?_, ?_⟩
  · omega
  · unfold bufBase
    omega

/-- The result set of 10_state.md R62 as its list of offsets. -/
theorem Reg.isResult_iff (r : Reg) :
    (Target.reg r).isResult = true ↔
      r.offset.toNat = 0x1C ∨ (0x28 ≤ r.offset.toNat ∧ r.offset.toNat ≤ 0x3C) ∨ r.offset.toNat = 0x48 ∨
        r.offset.toNat = 0x4C := by
  cases r <;> decide

/-- An address of the result set names a member of it. -/
theorem exists_target_of_inResultSet (h : inResultSet c a) : ∃ g, target c a = some g ∧ g.isResult = true := by
  obtain ⟨ha, hset⟩ := h
  unfold inWindow at hset
  obtain ⟨g, hg⟩ : ∃ g, target c a = some g := exists_target_of_mapped ha (by unfold inWindow; omega)
  refine ⟨g, hg, ?_⟩
  cases g with
  | window o => rfl
  | reg r =>
    have hlt := r.offset_lt
    rw [target_eq_reg.mp hg] at hset
    rw [Reg.isResult_iff]
    omega

end

/-! ### How a transaction ends (R88, R89, R90, R93) -/

section
variable {s : State} {a : HostAddr} {g : Target}

theorem State.hostRead_of_none (hg : target s.cfg a = none) : s.hostRead a = (0, .slverr) := by
  simp [State.hostRead, hg]

theorem State.hostWrite_of_none (hg : target s.cfg a = none) (v : Word) : s.hostWrite a v = (s, .slverr) := by
  simp [State.hostWrite, hg]

/-- A busy read of the result set is a free value (R93). -/
theorem State.hostRead_of_busy_result (hb : s.busy = true) (hg : target s.cfg a = some g) (hr : g.isResult = true) :
    s.hostRead a = (Config.busyDraw s.draws a.toNat, .okay) := by
  simp [State.hostRead, hg, hr, hb]

theorem State.hostRead_of_idle (hb : s.busy = false) (hg : target s.cfg a = some g) :
    s.hostRead a = (s.targetValue g, .okay) := by
  simp [State.hostRead, hg, hb]

theorem State.hostWrite_of_idle (hb : s.busy = false) (hg : target s.cfg a = some g) (v : Word) :
    s.hostWrite a v = (s.storeTarget v g, .okay) := by
  simp [State.hostWrite, hg, hb]

theorem State.hostRead_reg_of_idle (hb : s.busy = false) (r : Reg) : s.hostRead r.offset = (s.regValue r, .okay) :=
  State.hostRead_of_idle hb (target_offset s.cfg r)

theorem State.hostRead_resp (hg : target s.cfg a = some g) : (s.hostRead a).2 = .okay := by
  unfold State.hostRead
  rw [hg]
  dsimp only
  split_ifs <;> rfl

theorem State.hostWrite_resp (hg : target s.cfg a = some g) (v : Word) : (s.hostWrite a v).2 = .okay := by
  rcases s.hostWrite_cases a v with ⟨hn, -⟩ | ⟨q, -, -, -, hw⟩ | ⟨q, -, -, hw⟩
  · cases hg.symm.trans hn
  · rw [hw]
  · rw [hw]

/-- A window word read while idle, as the number of its four bytes (R83). -/
theorem State.hostRead_window (hb : s.busy = false) (ha : a.toNat % 4 = 0) (hw : inWindow s.cfg a) :
    (s.hostRead a).2 = .okay ∧ (s.hostRead a).1.toNat =
      (s.bufByte (a.toNat - 0x1000)).toNat * 2 ^ 24 + (s.bufByte (a.toNat - 0x1000 + 1)).toNat * 2 ^ 16 +
      (s.bufByte (a.toNat - 0x1000 + 2)).toNat * 2 ^ 8 + (s.bufByte (a.toNat - 0x1000 + 3)).toNat := by
  rw [State.hostRead_of_idle hb (target_of_inWindow ha hw)]
  exact ⟨rfl, wordOf_toNat _ _ _ _⟩

end

/-- Settles O10: an address of the three ranges names nothing. -/
theorem misalignedOrUnmappedGetsSlverr : Obligations.MisalignedOrUnmappedGetsSlverr := by
  intro s a v ha
  have hg := target_eq_none_iff.mpr ha
  exact ⟨State.hostRead_of_none hg, State.hostWrite_of_none hg v⟩

/-- Settles O11: a mapped address names a register or a word of the window. -/
theorem mappedAccessGetsOkay : Obligations.MappedAccessGetsOkay := by
  intro s a v ha hm
  obtain ⟨g, hg⟩ := exists_target_of_mapped ha hm
  exact ⟨State.hostRead_resp hg, State.hostWrite_resp hg v⟩

/-! ### The registers' layouts as numbers (10_state.md R34, R45, R52) -/

/-- PARAM's number (R34): BUF_BYTES is below 2^16. -/
theorem paramWord_toNat {c : Config} (hc : c.wf) : (paramWord c).toNat = c.bufBytes + 4 * 2 ^ 16 + 8 * 2 ^ 20 := by
  obtain ⟨-, -, hmax⟩ := hc
  have hbuf : (BitVec.ofNat 32 c.bufBytes).toNat = c.bufBytes := by
    rw [BitVec.toNat_ofNat]
    omega
  have hfour : (4 <<< 16 : Word).toNat = 2 ^ 16 * 4 := by decide
  have hsize : (8 <<< 20 : Word).toNat = 2 ^ 20 * 8 := by decide
  have hrounds := word_toNat_or_eq_add (x := BitVec.ofNat 32 c.bufBytes) (by omega) hfour
  rw [paramWord, word_toNat_or_eq_add (by omega) hsize]
  omega

theorem State.keylenWord_toNat (s : State) : s.keylenWord.toNat = s.klen.toNat := by
  rw [State.keylenWord, BitVec.toNat_setWidth_of_le (by decide)]

/-- PADRES's number (R52). -/
theorem State.padresWord_toNat (s : State) : s.padresWord.toNat = s.plen.toNat + 256 * s.vcnt.toNat := by
  have hplen : (s.plen.setWidth 32).toNat = s.plen.toNat := BitVec.toNat_setWidth_of_le (by decide)
  have hvcnt : (s.vcnt.setWidth 32 <<< 8).toNat = 2 ^ 8 * s.vcnt.toNat := by
    have := s.vcnt.isLt
    rw [BitVec.toNat_shiftLeft, BitVec.toNat_setWidth, Nat.shiftLeft_eq]
    omega
  have := s.plen.isLt
  rw [State.padresWord, word_toNat_or_eq_add (by omega) hvcnt]
  omega

theorem State.hostRead_keylen (s : State) : s.hostRead 0x018 = (s.keylenWord, .okay) :=
  s.hostRead_of_not_result (r := .keylen) rfl

/-- Settles O12: a register outside the result set reads its value, busy or not; a member of the result set reads a
free value while busy and its value while idle. -/
theorem hostReadGivesTheRegistersValue : Obligations.HostReadGivesTheRegistersValue := by
  intro s hc
  refine ⟨s.hostRead_id, ?_, ?_, ?_, s.hostRead_of_not_result (r := .cmd) rfl,
    s.hostRead_of_not_result (r := .errcmd) rfl, ?_, s.hostRead_of_not_result (r := .keyHi) rfl,
    s.hostRead_of_not_result (r := .keyLo) rfl, s.hostRead_of_not_result (r := .fin) rfl,
    s.hostRead_of_not_result (r := .fkey) rfl, fun hb a ha => ?_, fun hb => ?_⟩
  · rw [State.hostRead_param, paramWord_toNat hc]
  · rw [State.hostRead_ctrl, State.ctrlWord_toNat]
  · rw [State.hostRead_status, State.statusWord_toNat]
  · rw [State.hostRead_keylen, State.keylenWord_toNat]
  · obtain ⟨g, hg, hr⟩ := exists_target_of_inResultSet ha
    exact State.hostRead_of_busy_result hb hg hr
  · have hread := State.hostRead_reg_of_idle hb
    have hpadres : s.hostRead 0x04C = (s.padresWord, .okay) := hread .padres
    exact ⟨hread .msglen, hread .dataL, hread .dataR, hread .rk0, hread .rk1, hread .rk2, hread .rk3, hread .fout,
      by rw [hpadres, State.padresWord_toNat], fun a ha hw => State.hostRead_window hb ha hw⟩

/-! ### Writes to the data registers (10_state.md R45 to R50) -/

/-- The data registers KEYLEN to FKEY: the registers of the input set but CMD (10_state.md R62). -/
def Reg.isData (r : Reg) : Bool := (Target.reg r).isInput && r != .cmd

/-- The data registers as their range of offsets (10_state.md R32). -/
theorem Reg.isData_iff (r : Reg) : r.isData = true ↔ 0x18 ≤ r.offset.toNat ∧ r.offset.toNat ≤ 0x44 := by
  cases r <;> decide

section
variable {s : State} {r : Reg} (hr : r.isData = true) (v : Word)
include hr

/-- A store to a data register keeps what a host read depends on besides the registers' values. -/
theorem State.storeTarget_data_frame :
    (s.storeTarget v (.reg r)).cfg = s.cfg ∧ (s.storeTarget v (.reg r)).busy = s.busy ∧
      (s.storeTarget v (.reg r)).draws = s.draws ∧ (s.storeTarget v (.reg r)).buf = s.buf := by
  cases r with
  | id | param | ctrl | status | cmd | errcmd | fout | padres => cases hr
  | _ => exact ⟨rfl, rfl, rfl, rfl⟩

/-- A data register but KEYLEN holds the word that was stored. -/
theorem State.regValue_storeTarget_data (hne : r ≠ .keylen) : (s.storeTarget v (.reg r)).regValue r = v := by
  cases r with
  | id | param | ctrl | status | cmd | errcmd | fout | padres => cases hr
  | keylen => exact absurd rfl hne
  | _ => rfl

/-- A store to a data register changes no other register's value. -/
theorem State.regValue_storeTarget_of_ne {q : Reg} (hne : q ≠ r) :
    (s.storeTarget v (.reg r)).regValue q = s.regValue q := by
  cases r with
  | id | param | ctrl | status | cmd | errcmd | fout | padres => cases hr
  | _ =>
    -- The register q is another one, whose field the store leaves alone, or r itself, which hne excludes.
    cases q <;> first | rfl | exact absurd rfl hne

/-- After a store to a data register every other address reads as before. -/
theorem State.hostRead_storeTarget_of_ne {b : HostAddr} (hne : b ≠ r.offset) :
    (s.storeTarget v (.reg r)).hostRead b = s.hostRead b := by
  obtain ⟨hcfg, hbusy, hdraws, hbuf⟩ := State.storeTarget_data_frame (s := s) hr v
  have hvalue : ∀ g, target s.cfg b = some g → (s.storeTarget v (.reg r)).targetValue g = s.targetValue g := by
    intro g hg
    cases g with
    | window o => simp only [State.targetValue, hbuf, hdraws]
    | reg q =>
      refine State.regValue_storeTarget_of_ne hr v ?_
      rintro rfl
      exact hne (target_eq_reg.mp hg)
  unfold State.hostRead
  rw [hcfg, hbusy, hdraws]
  cases hg : target s.cfg b with
  | none => rfl
  | some g => simp only [hvalue g hg]

end

/-- The low 4 bits are what KEYLEN holds of a word stored in it (R45). -/
theorem State.keylen_storeTarget_toNat (s : State) (v : Word) :
    ((s.storeTarget v (.reg .keylen)).regValue .keylen).toNat = v.toNat % 16 := by
  refine (State.keylenWord_toNat _).trans ?_
  simp [State.storeTarget]

/-- Settles O16: the address is a data register's offset, and the write stores the word in it. -/
theorem dataRegisterReadsBackAndOthersKeep : Obligations.DataRegisterReadsBackAndOthersKeep := by
  intro s a v hb ha hlo hhi
  obtain ⟨r, rfl⟩ := exists_reg_of_le ha (by omega)
  have hr : r.isData = true := r.isData_iff.mpr ⟨hlo, hhi⟩
  have hidle : (s.storeTarget v (.reg r)).busy = false := (State.storeTarget_data_frame hr v).2.1.trans hb
  refine ⟨_, State.hostWrite_of_idle hb (target_offset _ r) v, fun hk => ?_, fun hk => ?_,
    fun b hne => State.hostRead_storeTarget_of_ne hr v hne⟩
  · obtain rfl : r = .keylen := Reg.offset_injective hk
    rw [State.hostRead_reg_of_idle hidle]
    exact s.keylen_storeTarget_toNat v
  · rw [State.hostRead_reg_of_idle hidle, State.regValue_storeTarget_data hr v fun h => hk (congrArg Reg.offset h)]

/-! ### Writes to the window (20_memory.md R84) -/

section
variable (s : State) (o : Nat) (v : Word)

/-- The bytes of BUF after a word is stored in the window. -/
theorem State.bufByte_storeWindow (j : Nat) :
    (s.storeTarget v (.window o)).bufByte j = if o ≤ j ∧ j < o + 4 then byteOf v (j - o) else s.bufByte j :=
  Memory.read_writeWord s.buf s.draws o j v

/-- The four stored bytes as numbers, most significant first (R83). -/
theorem State.bufByte_storeWindow_toNat :
    ((s.storeTarget v (.window o)).bufByte o).toNat = v.toNat / 2 ^ 24 ∧
      ((s.storeTarget v (.window o)).bufByte (o + 1)).toNat = v.toNat / 2 ^ 16 % 256 ∧
      ((s.storeTarget v (.window o)).bufByte (o + 2)).toNat = v.toNat / 2 ^ 8 % 256 ∧
      ((s.storeTarget v (.window o)).bufByte (o + 3)).toNat = v.toNat % 256 := by
  have hbyte : ∀ i < 4, ((s.storeTarget v (.window o)).bufByte (o + i)).toNat = v.toNat / 2 ^ (24 - 8 * i) % 256 := by
    intro i hi
    rw [State.bufByte_storeWindow, if_pos (by omega), Nat.add_sub_cancel_left, byteOf_toNat]
  have h0 := hbyte 0 (by decide)
  have h1 := hbyte 1 (by decide)
  have h2 := hbyte 2 (by decide)
  have h3 := hbyte 3 (by decide)
  rw [Nat.add_zero] at h0
  omega

end

/-- Settles O17: the read is the word of the four bytes, and the write stores exactly them. -/
theorem windowWriteSetsFourBytes : Obligations.WindowWriteSetsFourBytes := by
  intro s a v hb ha hw
  refine ⟨State.hostRead_window hb ha hw, ?_⟩
  have hg := target_of_inWindow ha hw
  generalize a.toNat - 0x1000 = o at hg ⊢
  obtain ⟨h0, h1, h2, h3⟩ := s.bufByte_storeWindow_toNat o v
  refine ⟨_, State.hostWrite_of_idle hb hg v, rfl, h0, h1, h2, h3, fun j hj => ?_, ?_⟩
  · rw [State.bufByte_storeWindow, if_neg (by omega)]
  · rw [State.hostRead_of_idle (s := s.storeTarget v (.window o)) hb hg]
    exact congrArg (·, Resp.okay) (Memory.readWord_writeWord s.buf s.draws o v)

/-! ### Writes while busy (20_memory.md R92) -/

section
variable (s : State) (v : Word)

/-- A STATUS write while busy is the write while idle with BUSY kept. -/
theorem State.writeStatus_of_busy (hb : s.busy = true) :
    s.writeStatus v = { ({ s with busy := false } : State).writeStatus v with busy := true } := by
  simp only [State.writeStatus_eq, ← hb]

/-- A write of the interrupt enables while busy is the write while idle with BUSY kept. -/
theorem State.setEnables_of_busy (hb : s.busy = true) :
    s.setEnables v = { ({ s with busy := false } : State).setEnables v with busy := true } := by
  simp only [State.setEnables, ← hb]

end

/-- Settles O21: a write to the input set is dropped, STATUS and CTRL are written as while idle, and a soft reset
clears the state. -/
theorem busyWriteIsDroppedAndSetsOvr : Obligations.BusyWriteIsDroppedAndSetsOvr := by
  intro s a v hb
  refine ⟨fun hin => State.hostWrite_of_busy_input hb hin v, ?_, fun hv => ?_, fun hv => ?_⟩
  · rw [State.hostWrite_status, State.hostWrite_status, State.writeStatus_of_busy s v hb]
  · rw [State.hostWrite_enables s hv, State.hostWrite_enables _ hv, State.setEnables_of_busy s v hb]
  · rw [State.hostWrite_softReset s hv]
    exact s.clear_atReset

/-! ### The step of a transaction (20_memory.md R94, R95) -/

/-- The turn of the step whose event stands first in the schedule. -/
theorem State.slot_of_cons {s : State} {e : Event} {es : List Event} (h : s.schedule = e :: es) :
    s.slot = { s with schedule := es, draws := s.draws + 1 } := by
  simp [State.slot, h]

/-- Settles O13: the step answers what hostRead gives in the state whose turn has passed, and changes nothing else. -/
theorem hostReadChangesNoRegister : Obligations.HostReadChangesNoRegister := by
  intro s a es hr hs
  refine ⟨_, _, ?_, rfl⟩
  rw [step_host hr hs, State.slot_of_cons hs]
  rfl

/-- Settles O14: the step is hostWrite in the state whose turn has passed, with its response at the port. -/
theorem hostWriteStepPerformsTheWrite : Obligations.HostWriteStepPerformsTheWrite := by
  intro s a v es hr hs
  refine ⟨_, _, rfl, ?_⟩
  rw [step_host hr hs, State.slot_of_cons hs]
  rfl

end Sys2Proof.Machine

namespace Sys2Proof

/-! ## The encoding: the decoder and the encoder on numbers, and `run <cmd>` at every latency

Proofs of the statements on 30_encoding.md. The fields of a word are quotients and remainders of its number, so the
decoder is said once on numbers: which format an opcode selects, and what each format gives. -/

/-! ### The formats on numbers (30_encoding.md R111 to R114) -/

section
variable (w : Word)

/-- A field of a word as its number has it. -/
theorem word_field_toNat (a n : Nat) : (w.extractLsb' a n).toNat = w.toNat / 2 ^ a % 2 ^ n := by
  rw [BitVec.extractLsb'_toNat, Nat.shiftRight_eq_div_pow]

theorem word_field_eq_zero_iff (a n : Nat) : w.extractLsb' a n = 0 ↔ w.toNat / 2 ^ a % 2 ^ n = 0 := by
  rw [← word_field_toNat, ← BitVec.toNat_inj]
  rfl

/-- A field that reaches up to bit 31 is 0 exactly where no bit from its lowest one on is set. -/
theorem word_high_field_eq_zero_iff {a n : Nat} (h : a + n = 32) : w.extractLsb' a n = 0 ↔ w.toNat / 2 ^ a = 0 := by
  have hlt : w.toNat / 2 ^ a < 2 ^ n := Nat.div_lt_of_lt_mul (by rw [← Nat.pow_add, h]; exact w.isLt)
  rw [word_field_eq_zero_iff, Nat.mod_eq_of_lt hlt]

theorem opcode_toNat : (w.extractLsb' 0 8).toNat = w.toNat % 256 := by
  rw [word_field_toNat, Nat.pow_zero, Nat.div_one]
  rfl

/-- Format N: nothing but the opcode. -/
theorem decodeN_eq (i : Instr) : decodeN w i = if w.toNat / 2 ^ 8 = 0 then .ok i else .error .reservedBits := by
  simp only [decodeN, word_high_field_eq_zero_iff w (a := 8) (n := 24) rfl]

/-- Format R: RN in 1..31 and nothing above it. -/
theorem decodeR_eq :
    decodeR w =
      if w.toNat / 2 ^ 13 ≠ 0 then .error .reservedBits
      else if w.toNat / 2 ^ 8 % 2 ^ 5 = 0 then .error .roundZero
      else .ok (.feval (w.toNat / 2 ^ 8 % 2 ^ 5)) := by
  simp only [decodeR, word_high_field_eq_zero_iff w (a := 13) (n := 19) rfl, word_field_eq_zero_iff w 8 5,
    word_field_toNat w 8 5, ne_eq]

/-- Format P: CNT and nothing above it. -/
theorem decodeP_eq :
    decodeP w =
      if w.toNat / 2 ^ 11 ≠ 0 then .error .reservedBits else .ok (.padblk (w.toNat / 2 ^ 8 % 2 ^ 3)) := by
  simp only [decodeP, word_high_field_eq_zero_iff w (a := 11) (n := 21) rfl, word_field_toNat w 8 3, ne_eq]

end

/-! ### The opcode map (30_encoding.md R116) -/

/-- The commands of format N: those without an operand (R112). -/
def Instr.formatN : Instr → Bool
  | .feval _ => false
  | .padblk _ => false
  | _ => true

section
variable {w : Word} {i : Instr}

theorem decode_of_formatN (hi : i.formatN = true) (h : w.toNat % 256 = i.opc.toNat) : decode w = decodeN w i := by
  unfold decode
  rw [opcode_toNat, h]
  cases i with
  | feval n => cases hi
  | padblk c => cases hi
  | _ => rfl

theorem decode_of_formatR (h : w.toNat % 256 = 4) : decode w = decodeR w := by
  unfold decode
  rw [opcode_toNat, h]
  rfl

theorem decode_of_formatP (h : w.toNat % 256 = 5) : decode w = decodeP w := by
  unfold decode
  rw [opcode_toNat, h]
  rfl

/-- An opcode from 9 on is none of the map. -/
theorem decode_of_unlisted (h : 9 ≤ w.toNat % 256) : decode w = .error .opcode := by
  obtain ⟨k, hk⟩ := Nat.exists_eq_add_of_le' h
  unfold decode
  rw [opcode_toNat, hk]
  rfl

/-- Every opcode is that of a command of format N, FEVAL's, PADBLK's, or none of the map. -/
theorem opcode_cases (w : Word) :
    (∃ i : Instr, i.formatN = true ∧ w.toNat % 256 = i.opc.toNat) ∨ w.toNat % 256 = 4 ∨ w.toNat % 256 = 5 ∨
      9 ≤ w.toNat % 256 := by
  generalize w.toNat % 256 = n
  match n with
  | 0 => exact .inl ⟨.nop, rfl, rfl⟩
  | 1 => exact .inl ⟨.keyexp, rfl, rfl⟩
  | 2 => exact .inl ⟨.encblk, rfl, rfl⟩
  | 3 => exact .inl ⟨.decblk, rfl, rfl⟩
  | 4 => exact .inr (.inl rfl)
  | 5 => exact .inr (.inr (.inl rfl))
  | 6 => exact .inl ⟨.unpadblk, rfl, rfl⟩
  | 7 => exact .inl ⟨.encmsg, rfl, rfl⟩
  | 8 => exact .inl ⟨.decmsg, rfl, rfl⟩
  | n + 9 => exact .inr (.inr (.inr (by omega)))

/-! ### The round trip (30_encoding.md R116, R117) -/

theorem Instr.opc_le (i : Instr) : i.opc.toNat ≤ 8 := by cases i <;> simp [Instr.opc]

/-- A command of format N has a word, no operand, and an opcode other than FEVAL's and PADBLK's. -/
theorem Instr.of_formatN (hi : i.formatN = true) :
    i.wf = true ∧ i.operand = 0 ∧ i.opc.toNat ≠ 4 ∧ i.opc.toNat ≠ 5 := by
  cases i with
  | feval n => cases hi
  | padblk c => cases hi
  | _ => decide

theorem Instr.wf_feval {n : Nat} : (Instr.feval n).wf = true ↔ 1 ≤ n ∧ n ≤ 31 := by simp [Instr.wf]

theorem Instr.wf_padblk {c : Nat} : (Instr.padblk c).wf = true ↔ c ≤ 7 := by simp [Instr.wf]

/-- The operand of a command that has a word fits in 5 bits. -/
theorem Instr.operand_lt (h : i.wf = true) : i.operand < 2 ^ 5 := by
  cases i with
  | feval n => have := Instr.wf_feval.mp h; simp only [Instr.operand]; omega
  | padblk c => have := Instr.wf_padblk.mp h; simp only [Instr.operand]; omega
  | _ => decide

/-- The word of a command on numbers: the opcode below, the operand from bit 8 on (R116). -/
theorem encode_toNat (h : i.wf = true) : (encode i).toNat = i.opc.toNat + 2 ^ 8 * i.operand := by
  have hopc := i.opc_le
  have hop := Instr.operand_lt h
  have hlow : (i.opc.setWidth 32).toNat = i.opc.toNat := BitVec.toNat_setWidth_of_le (by decide)
  have hhigh : (BitVec.ofNat 32 i.operand <<< 8).toNat = 2 ^ 8 * i.operand := by
    rw [BitVec.toNat_shiftLeft, BitVec.toNat_ofNat, Nat.shiftLeft_eq]
    omega
  rw [encode, Machine.word_toNat_or_eq_add (by omega) hhigh]
  omega

theorem encode_eq_iff (h : i.wf = true) : encode i = w ↔ w.toNat = i.opc.toNat + 2 ^ 8 * i.operand := by
  rw [← BitVec.toNat_inj, encode_toNat h, eq_comm]

end

/-- Settles O2, by the format of the command: the opcode of its word selects the format, and the format reads the
operand back. -/
theorem decodeOfEncodeIsTheCommand : Obligations.DecodeOfEncodeIsTheCommand := by
  intro i h
  have hw := encode_toNat h
  generalize encode i = w at hw
  have formatN (hi : i.formatN = true) : decode w = .ok i := by
    have hopc := i.opc_le
    obtain ⟨-, hop, -⟩ := Instr.of_formatN hi
    rw [hop] at hw
    rw [decode_of_formatN hi (by omega), decodeN_eq, if_pos (by omega)]
  cases i with
  | feval n =>
    have hn := Instr.wf_feval.mp h
    change w.toNat = 4 + 2 ^ 8 * n at hw
    have hrn : w.toNat / 2 ^ 8 % 2 ^ 5 = n := by omega
    rw [decode_of_formatR (by omega), decodeR_eq, if_neg (by omega), hrn, if_neg (by omega)]
  | padblk c =>
    have hc := Instr.wf_padblk.mp h
    change w.toNat = 5 + 2 ^ 8 * c at hw
    have hcnt : w.toNat / 2 ^ 8 % 2 ^ 3 = c := by omega
    rw [decode_of_formatP (by omega), decodeP_eq, if_neg (by omega), hcnt]
  | _ => exact formatN rfl

/-- Settles O3, by the opcode of the word: each format that gives a command has left no bit unread. -/
theorem decodedWordIsTheCommandsWord : Obligations.DecodedWordIsTheCommandsWord := by
  intro w i h
  rcases opcode_cases w with ⟨j, hj, hopc⟩ | hopc | hopc | hopc
  · rw [decode_of_formatN hj hopc, decodeN_eq] at h
    split_ifs at h with hz
    cases h
    obtain ⟨hwf, hop, -⟩ := Instr.of_formatN hj
    refine ⟨hwf, (encode_eq_iff hwf).mpr ?_⟩
    rw [hop]
    omega
  · rw [decode_of_formatR hopc, decodeR_eq] at h
    split_ifs at h with hhigh hrn
    cases h
    have hwf : (Instr.feval (w.toNat / 2 ^ 8 % 2 ^ 5)).wf = true := Instr.wf_feval.mpr (by omega)
    refine ⟨hwf, (encode_eq_iff hwf).mpr ?_⟩
    change w.toNat = 4 + 2 ^ 8 * (w.toNat / 2 ^ 8 % 2 ^ 5)
    omega
  · rw [decode_of_formatP hopc, decodeP_eq] at h
    split_ifs at h with hhigh
    cases h
    have hwf : (Instr.padblk (w.toNat / 2 ^ 8 % 2 ^ 3)).wf = true := Instr.wf_padblk.mpr (by omega)
    refine ⟨hwf, (encode_eq_iff hwf).mpr ?_⟩
    change w.toNat = 5 + 2 ^ 8 * (w.toNat / 2 ^ 8 % 2 ^ 3)
    omega
  · rw [decode_of_unlisted hopc] at h
    cases h

/-- A word decodes to the command whose word it is. -/
theorem decode_eq_of_encode_eq {i : Instr} {w : Word} (h : i.wf = true) (hw : encode i = w) : decode w = .ok i :=
  hw ▸ decodeOfEncodeIsTheCommand i h

/-- Settles O1: each of the nine words is the word of its command. -/
theorem sampleWordsDecode : Obligations.SampleWordsDecode := by
  refine ⟨?_, ?_, ?_, ?_, ?_, ?_, ?_, ?_, ?_⟩ <;> exact decode_eq_of_encode_eq rfl (by decide)

end Sys2Proof

namespace Sys2Proof.Machine

/-! ### Illegal words (30_encoding.md R118) -/

/-- The list of R118 is exactly the words that do not decode. -/
theorem decode_eq_error_iff (w : Word) : (∃ e, decode w = .error e) ↔ illegalWord w.toNat := by
  unfold illegalWord
  rcases opcode_cases w with ⟨j, hj, hopc⟩ | hopc | hopc | hopc
  · have hle := j.opc_le
    obtain ⟨-, -, h4, h5⟩ := Instr.of_formatN hj
    rw [decode_of_formatN hj hopc, decodeN_eq]
    split_ifs <;> simp <;> omega
  · rw [decode_of_formatR hopc, decodeR_eq]
    split_ifs <;> simp <;> omega
  · rw [decode_of_formatP hopc, decodeP_eq]
    split_ifs <;> simp <;> omega
  · simp [decode_of_unlisted hopc, hopc]

section
variable {s : State} {w : Word}

/-- A failure with a pending word is the exact next state of 60_exceptions.md R281. -/
theorem State.fail_of_pending (hp : s.pend = some w) (e : ErrCode) : s.fail e = failedWith s w e.code := by
  simp [State.fail, failedWith, State.failingWord, hp]

/-- A pending word that does not decode fails with ILLEGAL_COMMAND at the engine's turn. -/
theorem engineTurn_of_illegal (hr : s.rst = false) (hp : s.pend = some w) (hw : illegalWord w.toNat) :
    engineTurn s = .next (failedWith s w 5) := by
  obtain ⟨e, he⟩ := (decode_eq_error_iff w).mpr hw
  simp [engineTurn, hr, hp, runCommand, he, State.fail_of_pending hp, ErrCode.code]

end

/-- Settles O4: the words by the opcode's format, the failure by what the engine's turn does with such a word. -/
theorem illegalWordsFailWithCodeFive : Obligations.IllegalWordsFailWithCodeFive :=
  ⟨decode_eq_error_iff, fun _ _ hr hp hw => engineTurn_of_illegal hr hp hw⟩

/-! ### `run <cmd>` at every latency (30_encoding.md R124, 40_command_cycle.md R144)

The run passes four phases: the word not yet written, the command pending, the command performed and its completion not
yet seen, the loop of `wait` ended. Each slot moves it to a phase that the slot and the phase alone determine. -/

/-- A command that the assembler accepts is what its word decodes to (R117, R123). -/
theorem decode_of_assemble {i : Instr} {w : Word} (h : assemble i = some w) : decode w = .ok i := by
  unfold assemble at h
  split_ifs at h with hwf
  cases h
  exact decodeOfEncodeIsTheCommand i hwf

/-- Every command answers an idle next state with DONE = 1 (40_command_cycle.md R145, 60_exceptions.md R281). -/
theorem exec_completes (i : Instr) (s : State) :
    ∃ t, exec i s = .next t ∧ t.busy = false ∧ t.pend = none ∧ t.done = true := by
  obtain ⟨u, -, hx | ⟨e, -, hx⟩⟩ := exec_cases i s
  · exact ⟨_, hx, rfl, rfl, rfl⟩
  · exact ⟨_, hx, rfl, rfl, rfl⟩

/-- The state with another draw count and port answer: the model's own fields, which the turns of a run change whatever
else they do (logs 4, 6). -/
def State.withTrace (s : State) (d : Nat) (p : Option Answer) : State := { s with draws := d, port := p }

/-- A run of `run <cmd>` from s by its phase, 0 to 3: u' is what the command answered where its word was accepted, v the
last word of STATUS that the host read. -/
inductive RunPhase (i : Instr) (s : State) (w : Word) : Nat → HostRun → Prop where
  | unwritten (d : Nat) (p : Option Answer) : RunPhase i s w 0 ⟨[wrReg .cmd w, .waitIdle], s.withTrace d p⟩
  | pending (d : Nat) (p : Option Answer) : RunPhase i s w 1 ⟨[.waitIdle], (s.accept w).withTrace d p⟩
  | performed (d d' : Nat) (p p' : Option Answer) (u' : State)
      (hx : exec i ((s.accept w).withTrace d p) = .next u') : RunPhase i s w 2 ⟨[.waitIdle], u'.withTrace d' p'⟩
  | ended (d d' : Nat) (p : Option Answer) (v : Word) (u' : State)
      (hx : exec i ((s.accept w).withTrace d p) = .next u') (hbusy : v[0] = false) (hdone : v[1] = true) :
      RunPhase i s w 3 ⟨[], u'.withTrace d' (some (.read v .okay))⟩

/-- The phase after a slot: the host's slot writes the word or polls, the engine's performs the pending command. -/
def nextPhase : Nat → Slot → Nat
  | 0, .host => 1
  | 1, .engine => 2
  | 2, .host => 3
  | n, _ => n

theorem le_nextPhase (n : Nat) (c : Slot) : n ≤ nextPhase n c := by
  unfold nextPhase
  split <;> omega

theorem le_foldl_nextPhase (cs : List Slot) (n : Nat) : n ≤ cs.foldl nextPhase n := by
  induction cs generalizing n with
  | nil => exact Nat.le_refl n
  | cons c cs ih => exact (le_nextPhase n c).trans (ih _)

section
variable {i : Instr} {s : State} {w : Word} {ops : List HostOp} {d : Nat} {p : Option Answer}

/-- The write of the word to CMD while idle is accepted (40_command_cycle.md R141). -/
theorem HostRun.slot_wrCmd (hr : s.rst = false) (hb : s.busy = false) :
    (HostRun.mk (wrReg .cmd w :: ops) (s.withTrace d p)).slot .host =
      .next ⟨ops, (s.accept w).withTrace (d + 1) (some (.write .okay))⟩ := by
  have hw : (s.withTrace (d + 1) p).hostWrite Reg.cmd.offset w = ((s.accept w).withTrace (d + 1) p, .okay) :=
    State.hostWrite_of_idle (s := s.withTrace (d + 1) p) hb (target_offset _ .cmd) w
  have ht : (s.withTrace (d + 1) p).transact (.write Reg.cmd.offset w) =
      (s.accept w).withTrace (d + 1) (some (.write .okay)) := by
    rw [State.transact, hw]
    rfl
  rw [← ht]
  exact HostRun.slot_host (op := wrReg .cmd w) hr

/-- The state that a command of the run answers is idle, with DONE = 1 and the reset input released. -/
theorem idle_of_exec_accept {u' : State} (hr : s.rst = false) (hx : exec i ((s.accept w).withTrace d p) = .next u') :
    u'.rst = false ∧ u'.busy = false ∧ u'.pend = none ∧ u'.done = true := by
  obtain ⟨t, ht, hidle⟩ := exec_completes i ((s.accept w).withTrace d p)
  cases hx.symm.trans ht
  obtain ⟨-, hrst, -⟩ := exec_keeps_model_fields hx
  exact ⟨hrst.trans hr, hidle⟩

/-- A poll in a state that is idle with DONE = 1 ends the loop of `wait`: it reads BUSY = 0 and DONE = 1. -/
theorem HostRun.slot_wait_idle {t : State} (hr : t.rst = false) (hb : t.busy = false) (hdone : t.done = true) :
    ∃ v : Word, v[0] = false ∧ v[1] = true ∧
      (HostRun.mk [.waitIdle] (t.withTrace d p)).slot .host =
        .next ⟨[], t.withTrace (d + 1) (some (.read v .okay))⟩ := by
  refine ⟨(t.withTrace d p).statusWord, ?_, ?_, ?_⟩
  · exact (State.statusWord_busy _).trans hb
  · exact (State.statusWord_done _).trans hdone
  · rw [HostRun.slot_wait (s := t.withTrace d p) hr, if_neg (by simp [State.withTrace, hb])]
    rfl

variable (hr : s.rst = false) (hb : s.busy = false) (hp : s.pend = none) (hd : decode w = .ok i)
include hr hb hp hd

/-- No slot stops a run of `run <cmd>`, and each moves it to the slot's next phase. -/
theorem RunPhase.slot {n : Nat} {r : HostRun} (h : RunPhase i s w n r) (c : Slot) :
    ∃ r', r.slot c = .next r' ∧ RunPhase i s w (nextPhase n c) r' := by
  cases h with
  | unwritten d p =>
    cases c with
    | host => exact ⟨_, HostRun.slot_wrCmd hr hb, .pending _ _⟩
    | engine => exact ⟨_, HostRun.slot_engine_idle (s := s.withTrace d p) hr hp, .unwritten (d + 1) p⟩
  | pending d p =>
    cases c with
    | host => exact ⟨_, HostRun.slot_wait (s := (s.accept w).withTrace d p) hr, .pending (d + 1) _⟩
    | engine =>
      obtain ⟨u', hx, -⟩ := exec_completes i ((s.accept w).withTrace (d + 1) p)
      exact ⟨_, HostRun.slot_engine_pending (s := (s.accept w).withTrace d p) hr rfl hd hx,
        .performed (d + 1) u'.draws p u'.port u' hx⟩
  | performed d d' p p' u' hx =>
    obtain ⟨hrst, hbusy, hpend, hdone⟩ := idle_of_exec_accept hr hx
    cases c with
    | host =>
      obtain ⟨v, hv0, hv1, hslot⟩ := HostRun.slot_wait_idle (d := d') (p := p') hrst hbusy hdone
      exact ⟨_, hslot, .ended d (d' + 1) p v u' hx hv0 hv1⟩
    | engine =>
      exact ⟨_, HostRun.slot_engine_idle (s := u'.withTrace d' p') hrst hpend, .performed d (d' + 1) p p' u' hx⟩
  | ended d d' p v u' hx hv0 hv1 =>
    obtain ⟨hrst, -, hpend, -⟩ := idle_of_exec_accept hr hx
    cases c with
    | host => exact ⟨_, rfl, .ended d d' p v u' hx hv0 hv1⟩
    | engine =>
      exact ⟨_, HostRun.slot_engine_idle (s := u'.withTrace d' _) hrst hpend, .ended d (d' + 1) p v u' hx hv0 hv1⟩

/-- No run of `run <cmd>` stops, and its phase is the one its slots lead to. -/
theorem RunPhase.run {n : Nat} {r : HostRun} (h : RunPhase i s w n r) (cs : List Slot) :
    ∃ q, HostRun.run cs r = .next q ∧ RunPhase i s w (cs.foldl nextPhase n) q := by
  induction cs generalizing n r with
  | nil => exact ⟨r, rfl, h⟩
  | cons c cs ih =>
    obtain ⟨r', hslot, h'⟩ := h.slot hr hb hp hd c
    rw [HostRun.run_cons hslot]
    exact ih h'

end

section
variable {i : Instr} {s : State} {w : Word} {n : Nat} {r : HostRun}

/-- From phase 3 on the host has nothing left to perform. -/
theorem RunPhase.ops_eq_nil (h : RunPhase i s w n r) (hn : 3 ≤ n) : r.ops = [] := by
  cases h with
  | ended => rfl
  | unwritten | pending | performed => omega

end

/-- A host turn, a later engine turn and a host turn last lead to the last phase, whatever comes in between. -/
theorem three_le_foldl_nextPhase (a b c : List Slot) :
    3 ≤ (a ++ Slot.host :: b ++ Slot.engine :: c ++ [Slot.host]).foldl nextPhase 0 := by
  have written : ∀ n, 1 ≤ nextPhase n .host
    | 0 => Nat.le_refl 1
    | n + 1 => (Nat.le_add_left 1 n).trans (le_nextPhase _ _)
  have performed : ∀ n, 1 ≤ n → 2 ≤ nextPhase n .engine
    | 1, _ => Nat.le_refl 2
    | n + 2, _ => (Nat.le_add_left 2 n).trans (le_nextPhase _ _)
  have seen : ∀ n, 2 ≤ n → 3 ≤ nextPhase n .host
    | 2, _ => Nat.le_refl 3
    | n + 3, _ => (Nat.le_add_left 3 n).trans (le_nextPhase _ _)
  simp only [List.foldl_append, List.foldl_cons, List.foldl_nil]
  exact seen _ ((performed _ ((written _).trans (le_foldl_nextPhase b _))).trans (le_foldl_nextPhase c _))

/-- Settles O34: a run of `run <cmd>` starts in phase 0, and the host has nothing left to perform only in phase 3, which
every order with a host turn, a later engine turn and a host turn last reaches. -/
theorem runStatementCompletesAtEveryLatency : Obligations.RunStatementCompletesAtEveryLatency := by
  intro i s w ops hr hb hp hw hops
  obtain rfl : [wrReg .cmd w, .waitIdle] = ops := Option.some.inj ((run_ops hw).symm.trans hops)
  have start : RunPhase i s w 0 ⟨[wrReg .cmd w, .waitIdle], s⟩ := .unwritten s.draws s.port
  have run := start.run hr hb hp (decode_of_assemble hw)
  refine ⟨fun slots => ?_, fun a b c => ?_⟩
  · obtain ⟨r, hrun, hphase⟩ := run slots
    refine ⟨r, hrun, fun hnil => ?_⟩
    generalize slots.foldl nextPhase 0 = n at hphase
    cases hphase with
    | unwritten | pending | performed => cases hnil
    | ended d d' p v u' hx hv0 hv1 =>
      obtain ⟨-, hbusy, hpend, hdone⟩ := idle_of_exec_accept hr hx
      exact ⟨hbusy, hpend, hdone, v, _, u', rfl, hv0, hv1, rfl, hx, rfl⟩
  · obtain ⟨r, hrun, hphase⟩ := run (a ++ .host :: b ++ .engine :: c ++ [.host])
    exact ⟨r, hrun, hphase.ops_eq_nil (three_le_foldl_nextPhase a b c)⟩

end Sys2Proof.Machine

namespace Sys2Proof.Machine

/-! ## The command cycle: acceptance, the engine step, and what a pending command can become

Proofs of the statements of 40_command_cycle.md. What a command answers is said by `exec_cases`; the lemmas here say
which step runs it, what each kind of event does to PEND, and where a command looks at a free value. -/

/-- Settles O26: a command ends by finishing or by failing, and both leave the machine idle with DONE = 1. -/
theorem everyCommandCompletes : Obligations.EveryCommandCompletes := exec_completes

/-- Settles O22: CMD is a member of the input set, so its write is performed while idle and dropped while busy. -/
theorem cmdWriteWhileIdleAcceptsTheWord : Obligations.CmdWriteWhileIdleAcceptsTheWord := by
  refine fun s w => ⟨fun hb => State.hostWrite_of_idle hb (target_offset _ .cmd) w, fun hb => ?_⟩
  rw [State.hostWrite_of_busy_input hb ⟨rfl, .inl rfl⟩]
  exact ⟨rfl, rfl⟩

/-! ### The step at the engine's turn (40_command_cycle.md R143) -/

section
variable {s : State}

/-- With nothing pending the engine's turn changes nothing, whatever the level of the reset input. -/
theorem engineTurn_of_idle (hp : s.pend = none) : engineTurn s = .next s := by
  unfold engineTurn
  rw [hp]
  exact ite_self _

/-- The engine has its turn where the schedule is empty and where its event stands first (R144). -/
theorem State.nextEvent_eq_engine (h : s.schedule = [] ∨ s.schedule.head? = some .engine) :
    s.nextEvent = .engine := by
  rcases h with h | h <;> simp [State.nextEvent, h]

theorem step_of_engine (he : s.nextEvent = .engine) : step s = engineTurn s.slot := by
  rw [step, he]
  rfl

/-- The step at the engine's turn is the pending command's meaning at the state whose turn has passed. -/
theorem step_of_pending {w : Word} {i : Instr} (he : s.nextEvent = .engine) (hr : s.rst = false)
    (hp : s.pend = some w) (hd : decode w = .ok i) : step s = exec i s.slot :=
  (step_of_engine he).trans (engineTurn_pending (s := s.slot) hr hp hd)

/-- The word placed by withFetchWord is the word itself: no bit of it is cut off. -/
theorem State.withFetchWord_toNat (w : Word) : s.withFetchWord 32 w.toNat = s.withCommand w := by
  rw [State.withFetchWord, Nat.mod_eq_of_lt w.isLt, BitVec.ofNat_toNat, BitVec.setWidth_eq]

end

/-- Settles O24, by what the engine's turn does with a pending word and with none. -/
theorem stepRunsThePendingCommand : Obligations.StepRunsThePendingCommand :=
  ⟨fun _ _ _ hr hp hd hs => step_of_pending (State.nextEvent_eq_engine hs) hr hp hd,
    fun s hp hs => (step_of_engine (State.nextEvent_eq_engine hs)).trans (engineTurn_of_idle (s := s.slot) hp)⟩

/-- Settles O25: withFetchWord leaves the word pending, the reset input released and the engine's turn next. -/
theorem fetchWordIsRunByTheNextStep : Obligations.FetchWordIsRunByTheNextStep := by
  intro s w i hd
  rw [State.withFetchWord_toNat]
  exact step_of_pending (s := s.withCommand w) rfl rfl rfl hd

/-! ### NOP and the words of a format-N opcode (R147, 30_encoding.md R112, R118) -/

/-- Words that 30_encoding.md R118 lists as illegal fail with code 5 at the engine's turn. -/
theorem badWordFails_of_illegal {bad : Nat → Prop} (h : ∀ n, bad n → illegalWord n) : badWordFails bad :=
  fun _ w hr hp hw => engineTurn_of_illegal hr hp (h w.toNat hw)

/-- A format-N command has one word: its opcode with any other bit set is illegal. -/
theorem onlyWord_of_formatN {i : Instr} (hi : i.formatN = true) : onlyWord i.opc.toNat := by
  refine badWordFails_of_illegal fun n ⟨hopc, hne⟩ => ?_
  have hle := i.opc_le
  obtain ⟨-, -, h4, h5⟩ := Instr.of_formatN hi
  unfold illegalWord
  omega

/-- Settles O35: NOP is a format-N command, and its meaning is to finish. -/
theorem nopOnlyCompletes : Obligations.NopOnlyCompletes :=
  ⟨by decide, onlyWord_of_formatN (i := .nop) rfl, fun _ => rfl⟩

/-! ### What a step can do to PEND (R140) -/

section
variable {s t : State}

/-- A step whose event is a host transaction and that answers a next state performs it. -/
theorem step_of_host {x : Txn} (he : s.nextEvent = .host x) (h : step s = .next t) : t = s.slot.transact x := by
  rcases step_cases h with ⟨y, hy, -, ht⟩ | ⟨hy, -⟩ | ⟨w, i, hy, -⟩ | ⟨w, e, hy, -⟩ | ⟨hy, -⟩ | ⟨hy, -⟩ <;>
    cases he.symm.trans hy
  exact ht

/-- What a step does to PEND: nothing, an acceptance while idle, or its end by the engine step or a reset. -/
theorem step_pend_cases (h : step s = .next t) :
    t.pend = s.pend ∨
    (s.busy = false ∧ ∃ w, s.nextEvent = .host (.write 0x010 w) ∧ t.pend = some w) ∨
    ((s.nextEvent = .engine ∨ resetEvent s.nextEvent) ∧ t.pend = none) := by
  cases stepped_of_step h with
  | read a x he hr => exact .inl rfl
  | unmapped a v x he hr hg => exact .inl rfl
  | dropped a v g x he hr hg hin hb => exact .inl rfl
  | stored a v g x he hr hg hb =>
    rcases s.slot.storeTarget_pend_cases v g with hkeep | ⟨rfl, hacc⟩ | ⟨rfl, hv, hclr⟩
    · exact .inl hkeep
    · have hidle : s.busy = false := by simpa [Target.isInput] using hb
      exact .inr (.inl ⟨hidle, v, s.nextEvent_write_reg he hg, by simp [hacc]⟩)
    · exact .inr (.inr ⟨.inr (resetEvent_of_ctrl he hg hv), by simp [hclr]⟩)
  | idle he hi => exact .inl rfl
  | finished w u he hp hr hu => exact .inr (.inr ⟨.inl he, rfl⟩)
  | failed w u e he hp hr hu hne => exact .inr (.inr ⟨.inl he, rfl⟩)
  | assertReset he => exact .inr (.inr ⟨.inr (resetEvent_of_assertReset he), rfl⟩)
  | releaseReset he => exact .inl rfl

/-- The step of a CMD write while idle makes the word pending (R141). -/
theorem step_pend_of_cmdWrite {w : Word} (hb : s.busy = false) (he : s.nextEvent = .host (.write 0x010 w))
    (h : step s = .next t) : t.pend = some w := by
  rw [step_of_host he h, State.transact, (cmdWriteWhileIdleAcceptsTheWord s.slot w).1 hb]
  rfl

/-- A reset discards the pending command (10_state.md R36, 70_reset_and_hazards.md R320). -/
theorem step_pend_of_reset (he : resetEvent s.nextEvent) (h : step s = .next t) : t.pend = none := by
  rcases he with he | ⟨v, he, hv⟩
  · rw [step, he] at h
    cases h
    rfl
  · rw [step_of_host he h, State.transact, State.hostWrite_softReset _ hv]
    rfl

/-- The engine step leaves no command pending (R143, R145). -/
theorem step_pend_of_engine {w : Word} (hi : Inv s) (hp : s.pend = some w) (he : s.nextEvent = .engine)
    (h : step s = .next t) : t.pend = none ∧ t.busy = false := by
  obtain ⟨u, -, rfl | ⟨e, -, rfl⟩⟩ := engine_cases he (hi.released_of_pending hp) hp h
  · exact ⟨rfl, rfl⟩
  · exact ⟨rfl, rfl⟩

/-- BUSY is 1 exactly while a command is pending (10_state.md R38). -/
theorem Inv.busy_iff (hi : Inv s) : s.busy = true ↔ s.pend ≠ none := by
  rw [hi.pending.1, Option.isSome_iff_ne_none]

theorem Inv.idle_of_pend_none (hi : Inv s) (hp : s.pend = none) : s.busy = false := by
  rw [hi.pending.1, hp]
  rfl

end

/-- Settles O28, by the ways a step can change PEND. While a command is pending the invariant has BUSY = 1, so no
acceptance replaces its word. -/
theorem pendingCommandLifecycle : Obligations.PendingCommandLifecycle := by
  intro s t hi h
  refine ⟨(everyStepKeepsTheInvariant s t hi h).busy_iff, fun hp w => ⟨fun hw => ?_, fun he => ?_⟩,
    fun he => step_pend_of_reset he h, fun hp hnone => ?_, fun w hp he => step_pend_of_engine hi hp he h,
    fun w w' hp hp' => ?_⟩
  · rcases step_pend_cases h with hkeep | ⟨-, v, he, hv⟩ | ⟨-, hend⟩
    · cases hw.symm.trans (hkeep.trans hp)
    · cases hw.symm.trans hv
      exact he
    · cases hw.symm.trans hend
  · exact step_pend_of_cmdWrite (hi.idle_of_pend_none hp) he h
  · rcases step_pend_cases h with hkeep | ⟨-, v, -, hv⟩ | ⟨hev, -⟩
    · exact absurd (hkeep.symm.trans hnone) hp
    · cases hnone.symm.trans hv
    · exact hev
  · rcases step_pend_cases h with hkeep | ⟨hidle, -⟩ | ⟨-, hend⟩
    · exact Option.some.inj (hp'.symm.trans (hkeep.trans hp))
    · have hbusy := hi.busy_iff.mpr (by simp [hp])
      cases hidle.symm.trans hbusy
    · cases hp'.symm.trans hend

/-! ### Commands over written bytes (R146, 10_state.md R59)

Only ENCMSG and DECMSG read BUF, and only the bytes of the message. -/

section
variable {s t : State} (d : Nat)

theorem execKeyexp_of_draws (h : execKeyexp s = .next t) :
    execKeyexp { s with draws := d } = .next { t with draws := d } := by
  by_cases hk : s.keyValid
  · cases (execKeyexp_of_valid hk).symm.trans h
    exact execKeyexp_of_valid (s := { s with draws := d }) hk
  · cases (execKeyexp_of_invalid hk).symm.trans h
    exact execKeyexp_of_invalid (s := { s with draws := d }) hk

theorem execUnpadblk_of_draws (h : execUnpadblk s = .next t) :
    execUnpadblk { s with draws := d } = .next { t with draws := d } := by
  cases hp : padCheck (blockByte s.block) 8 with
  | some p =>
    cases (execUnpadblk_of_some hp).symm.trans h
    exact execUnpadblk_of_some (s := { s with draws := d }) hp
  | none =>
    cases (execUnpadblk_of_none hp).symm.trans h
    exact execUnpadblk_of_none (s := { s with draws := d }) hp

variable (hw : ∀ o, o < s.msglen.toNat → s.buf.find o ≠ none)
include hw

/-- After the pad loop every byte of the blocks to encrypt is written: the message was, and the loop writes the rest. -/
theorem State.paddedBuf_written {o : Nat} (ho : o < 8 * (s.msglen.toNat / 8 + 1)) :
    (s.paddedBuf s.msglen.toNat).find o ≠ none := by
  have hP := add_padLength s.msglen.toNat
  rw [State.paddedBuf, Memory.find_fill]
  split_ifs with hpad
  · exact Option.some_ne_none _
  · exact hw o (by omega)

theorem State.encryptedBuf_of_draws : State.encryptedBuf { s with draws := d } = s.encryptedBuf :=
  Memory.mapBlocks_of_written _ (fun _ => State.paddedBuf_written hw) d s.draws

theorem State.decryptedBuf_of_draws : State.decryptedBuf { s with draws := d } = s.decryptedBuf :=
  Memory.mapBlocks_of_written _ (fun o (ho : o < 8 * (s.msglen.toNat / 8)) => hw o (by omega)) d s.draws

/-- The padding check of DECMSG reads the bytes that the decryption loop wrote. -/
theorem State.padCheck_decryptedBuf_of_draws (h8 : s.msglen.toNat % 8 = 0) :
    padCheck ((State.decryptedBuf { s with draws := d }).read d) s.msglen.toNat =
      padCheck (s.decryptedBuf.read s.draws) s.msglen.toNat := by
  rw [State.decryptedBuf_of_draws d hw]
  refine padCheck_congr fun j hj => Memory.read_of_written ?_ d s.draws
  rw [State.decryptedBuf, Memory.find_mapBlocks, if_pos (by omega)]
  exact Option.some_ne_none _

theorem execEncmsg_of_draws (h : execEncmsg s = .next t) :
    execEncmsg { s with draws := d } = .next { t with draws := d } := by
  by_cases hk : s.keyValid
  · rcases Nat.lt_or_ge s.msglen.toNat s.cfg.bufBytes with hn | hn
    · cases (execEncmsg_of_ok hk hn).symm.trans h
      rw [execEncmsg_of_ok (s := { s with draws := d }) hk hn, State.encryptedBuf_of_draws d hw]
      rfl
    · cases (execEncmsg_of_long hk hn).symm.trans h
      exact execEncmsg_of_long (s := { s with draws := d }) hk hn
  · cases (execEncmsg_of_invalid hk).symm.trans h
    exact execEncmsg_of_invalid (s := { s with draws := d }) hk

theorem execDecmsg_of_draws (h : execDecmsg s = .next t) :
    execDecmsg { s with draws := d } = .next { t with draws := d } := by
  rcases execDecmsg_cases s with h8 | ⟨h8, hn⟩ | ⟨h8, hn, hk⟩ | ⟨h8, hn, hk⟩
  · cases (execDecmsg_of_length h8).symm.trans h
    exact execDecmsg_of_length (s := { s with draws := d }) h8
  · cases (execDecmsg_of_long h8 hn).symm.trans h
    exact execDecmsg_of_long (s := { s with draws := d }) h8 hn
  · cases (execDecmsg_of_invalid h8 hn hk).symm.trans h
    exact execDecmsg_of_invalid (s := { s with draws := d }) h8 hn hk
  · have hcheck := State.padCheck_decryptedBuf_of_draws d hw h8
    cases hp : padCheck (s.decryptedBuf.read s.draws) s.msglen.toNat with
    | some p =>
      cases (execDecmsg_of_some h8 hn hk hp).symm.trans h
      rw [execDecmsg_of_some (s := { s with draws := d }) h8 hn hk (hcheck.trans hp), State.decryptedBuf_of_draws d hw]
      rfl
    | none =>
      cases (execDecmsg_of_none h8 hn hk hp).symm.trans h
      rw [execDecmsg_of_none (s := { s with draws := d }) h8 hn hk (hcheck.trans hp), State.decryptedBuf_of_draws d hw]
      rfl

end

/-- Settles O59: the message commands read written bytes alone, and every other command reads no byte of BUF. -/
theorem writtenMessagesLeaveNothingOpen : Obligations.WrittenMessagesLeaveNothingOpen := by
  intro i s t d hw h
  cases i with
  | keyexp => exact execKeyexp_of_draws d h
  | unpadblk => exact execUnpadblk_of_draws d h
  | encmsg => exact execEncmsg_of_draws d hw h
  | decmsg => exact execDecmsg_of_draws d hw h
  | nop | encblk | decblk | feval | padblk =>
    cases h
    rfl

end Sys2Proof.Machine

namespace Sys2Proof.Machine

/-! ## The bit utilities: splitting, joining and rotation on numbers

Proofs of the statement of 41_bit_utilities.md. The byte-numbered forms of R160 and the rotations by a reduced amount
are laws of the model; the lemmas here carry them to byte strings and to any integer amount. -/

/-- joinBlock gives back the string that splitBlock read (R160). -/
theorem joinBlock_splitBlock {b : List Byte} (h : b.length = 8) : joinBlock (splitBlock b) = b := by
  refine List.ext_getElem (by simp [h]) fun j hj hj' => ?_
  rw [← List.getD_eq_getElem _ 0 hj, ← List.getD_eq_getElem _ 0 hj', joinBlock_getD _ (by omega),
    splitBlock, blockByte_blockOf _ (by omega)]

/-- The halves of splitBlock as one number are the string read big-endian (R160). -/
theorem splitBlock_toNat {b : List Byte} (h : b.length = 8) :
    (splitBlock b).1.toNat * 2 ^ 32 + (splitBlock b).2.toNat = b.foldl (fun x y => x * 256 + y.toNat) 0 := by
  match b, h with
  | [b0, b1, b2, b3, b4, b5, b6, b7], _ =>
    simp only [splitBlock, blockOf, wordOf_toNat, List.getD_cons_zero, List.getD_cons_succ, List.foldl_cons,
      List.foldl_nil]
    omega

/-- Only the amount mod 64 counts (R162). -/
theorem rotl64_emod (x : DWord) (a : Int) : rotl64 x (a % 64) = rotl64 x a := by
  simp [rotl64]

/-- rotl32 by any integer is the rotation by the non-negative remainder (R161). -/
theorem rotl32_int_toNat (x : Word) (a : Int) : (rotl32 x a).toNat = Arith.rotl 32 x.toNat (a % 32).toNat := by
  have h := rotl32_toNat x (a % 32).toNat
  rwa [Nat.mod_eq_of_lt (by omega), Int.toNat_of_nonneg (by omega), rotl32_emod] at h

/-- rotl64 by any integer is the rotation by the non-negative remainder (R162). -/
theorem rotl64_int_toNat (x : DWord) (a : Int) : (rotl64 x a).toNat = Arith.rotl 64 x.toNat (a % 64).toNat := by
  have h := rotl64_toNat x (n := (a % 64).toNat) (by omega)
  rwa [Int.toNat_of_nonneg (by omega), rotl64_emod] at h

/-- Settles O44: the string's bytes one by one for the inverses and the number, the reduced amount for the rotations. -/
theorem bitUtilitiesOnNumbers : Obligations.BitUtilitiesOnNumbers :=
  ⟨fun _ h => ⟨joinBlock_splitBlock h, splitBlock_toNat h⟩,
    fun b => ⟨splitBlock_joinBlock b, joinBlock_length b⟩, rotl32_int_toNat, rotl64_int_toNat⟩

end Sys2Proof.Machine

namespace Sys2Proof.Machine

/-! ## Padding: PADBLK, UNPADBLK and the padding of byte strings

Proofs of the statements of 42_padding.md. The check of R181 is one function of the model, on a string and on the block;
read on numbers it says that the last p bytes have the value p, and each statement is about one of its answers. -/

/-- A byte with the value of a pad length is the pad byte. -/
theorem byte_eq_ofNat_iff {b : Byte} {p : Nat} (h : p ≤ 8) : b = BitVec.ofNat 8 p ↔ b.toNat = p := by
  rw [← BitVec.toNat_inj, BitVec.toNat_ofNat, Nat.mod_eq_of_lt (by omega)]

/-- The check of R181 on numbers: the last p bytes have the value p. The last byte is one of them. -/
theorem padCheck_eq_some_iff_toNat {get : Nat → Byte} {n p : Nat} :
    padCheck get n = some p ↔
      1 ≤ p ∧ p ≤ 8 ∧ p ≤ n ∧ ∀ j, n - p ≤ j → j < n → (get j).toNat = p := by
  rw [padCheck_eq_some]
  constructor
  · rintro ⟨-, -, h1, h8, hn, hb⟩
    exact ⟨h1, h8, hn, fun j hj hjn => (byte_eq_ofNat_iff h8).mp (hb j hj hjn)⟩
  · rintro ⟨h1, h8, hn, hb⟩
    exact ⟨by omega, hb (n - 1) (by omega) (by omega), h1, h8, hn,
      fun j hj hjn => (byte_eq_ofNat_iff h8).mpr (hb j hj hjn)⟩

/-! ### Byte strings (R180, R181, R184) -/

/-- Every byte that pad appends has the value of the pad length (R180). -/
theorem pad_getD_toNat {m : List Byte} {j : Nat} (h : m.length ≤ j) (hj : j < m.length + padLength m.length) :
    ((pad m).getD j 0).toNat = padLength m.length := by
  rw [pad_getD, if_neg (by omega), if_pos hj]
  exact (byte_eq_ofNat_iff (padLength_bounds _).2).mp rfl

/-- Settles O45: pad by its length and bytes, unpad by the check on numbers. -/
theorem padAndUnpadByTheirDefinition : Obligations.PadAndUnpadByTheirDefinition := by
  refine ⟨fun m => ⟨pad_length m, fun j hj => ?_, fun j h hj => pad_getD_toNat h hj⟩, fun d m => ?_⟩
  · rw [pad_getD, if_pos hj]
  · simp only [unpad_eq_some, padCheck_eq_some_iff_toNat, and_assoc]

/-- Settles O46: the padded length is 8·(n div 8) + 8 for a message of n bytes. -/
theorem paddingLaws : Obligations.PaddingLaws := by
  intro m
  have hP := add_padLength m.length
  have hp := padLength_bounds m.length
  rw [pad_length]
  exact ⟨unpad_pad m, by omega, by omega, by omega⟩

/-! ### The block in DATA (R182, R183) -/

/-- The bytes of the padded block on numbers (R182). -/
theorem blockByte_padBlock_toNat {c j : Nat} (b : Block) (hj : j < 8) :
    (blockByte (padBlock c b) j).toNat = if j < c then (blockByte b j).toNat else 8 - c := by
  rw [blockByte_padBlock c b hj]
  rcases Nat.lt_or_ge j c with h | h
  · rw [if_neg (by omega), if_pos h]
  · rw [if_pos h, if_neg (by omega)]
    exact (byte_eq_ofNat_iff (by omega)).mp rfl

/-- Settles O41: the word's bits above CNT are illegal, and the bytes of the padded block are said on numbers. -/
theorem padblkPadsTheBlock : Obligations.PadblkPadsTheBlock := by
  refine ⟨badWordFails_of_illegal fun n hn => .inr (.inr (.inr hn)), fun c hc => ⟨?_, fun s => ?_⟩⟩
  · rw [encode_eq_iff (Instr.wf_padblk.mpr hc), BitVec.toNat_ofNat, Nat.mod_eq_of_lt (by omega)]
    rfl
  · refine ⟨(padBlock c s.block).1, (padBlock c s.block).2, rfl, fun j hj => ?_⟩
    rw [← blockByte_toNat _ hj, blockByte_padBlock_toNat _ hj, blockByte_toNat _ hj]
    rfl

/-- The block ends in right padding of length p exactly where the check finds p: the value of byte 7 is DATA_R mod 256,
and the check has it among the last p bytes. -/
theorem padded_iff_padCheck {s : State} {p : Nat} : padded s p ↔ padCheck (blockByte s.block) 8 = some p := by
  have hbyte : ∀ j, j < 8 → (blockByte s.block j).toNat = Arith.blockByte s.dataL.toNat s.dataR.toNat j :=
    fun j hj => blockByte_toNat s.block hj
  have hlast : Arith.blockByte s.dataL.toNat s.dataR.toNat 7 = s.dataR.toNat % 256 := by
    rw [Arith.blockByte]
    omega
  rw [padCheck_eq_some_iff_toNat]
  constructor
  · rintro ⟨-, h1, h8, hb⟩
    exact ⟨h1, h8, h8, fun j hj hj8 => (hbyte j hj8).trans (hb j hj hj8)⟩
  · rintro ⟨h1, h8, -, hb⟩
    have hb' : ∀ j, 8 - p ≤ j → j < 8 → Arith.blockByte s.dataL.toNat s.dataR.toNat j = p :=
      fun j hj hj8 => (hbyte j hj8).symm.trans (hb j hj hj8)
    exact ⟨(hb' 7 (by omega) (by omega)).symm.trans hlast, h1, h8, hb'⟩

/-- A block without right padding of any length fails the check. -/
theorem padCheck_eq_none_of_not_padded {s : State} (h : ¬ ∃ p, padded s p) : padCheck (blockByte s.block) 8 = none :=
  Option.eq_none_iff_forall_ne_some.mpr fun p hp => h ⟨p, padded_iff_padCheck.mpr hp⟩

/-- Settles O42, by the two answers of the check on the block. -/
theorem unpadblkChecksThePadding : Obligations.UnpadblkChecksThePadding := by
  refine ⟨by decide, onlyWord_of_formatN (i := .unpadblk) rfl, fun s p h => ?_, fun s w hp h => ?_⟩
  · exact execUnpadblk_of_some (padded_iff_padCheck.mp h)
  · refine (execUnpadblk_of_none (padCheck_eq_none_of_not_padded h)).trans ?_
    rw [State.fail_of_pending (s := s.clearPadres) hp]
    rfl

/-- Settles O43: PADBLK leaves the padded block in DATA, and the check finds its pad length 8 - c. -/
theorem unpadblkAcceptsPadblksBlock : Obligations.UnpadblkAcceptsPadblksBlock := by
  intro c hc s
  have hplen : (BitVec.ofNat 4 (8 - c)).toNat = 8 - c := Nat.mod_eq_of_lt (by omega)
  have hvcnt : (BitVec.ofNat 4 (8 - (8 - c))).toNat = c := by
    rw [BitVec.toNat_ofNat]
    omega
  exact ⟨_, _, rfl, execUnpadblk_of_some (padCheck_padBlock hc s.block), hplen, hvcnt, rfl, rfl, rfl, rfl⟩

end Sys2Proof.Machine

namespace Sys2Proof.Machine

/-! ## The key schedule: KEYEXP

Proofs of the statements on 43_key_schedule.md. -/

/-- A round key of the key registers' schedule, on their numbers (R201, 20_memory.md R81). -/
theorem roundKey_masterKey_toNat (s : State) {i : Nat} (hi : i < 4) :
    (roundKey s.masterKey i).toNat = Arith.roundKey (s.keyHi.toNat * 2 ^ 32 + s.keyLo.toNat) i := by
  rw [roundKey_toNat s.masterKey hi, masterKey_toNat]

/-- Settles O36: a valid key gives the schedule of the key registers, and KEYEXP fails where the key is not valid. -/
theorem keyexpDerivesTheRoundKeys : Obligations.KeyexpDerivesTheRoundKeys := by
  refine ⟨by decide, onlyWord_of_formatN (i := .keyexp) rfl, fun s hk => ?_, fun s w hp hk => ?_⟩
  · have key {i : Nat} (hi : i < 4) := roundKey_masterKey_toNat s hi
    exact ⟨keySchedule s.masterKey, execKeyexp_of_valid hk,
      key (by decide), key (by decide), key (by decide), key (by decide)⟩
  · exact (execKeyexp_of_invalid hk).trans (congrArg _ (State.fail_of_pending hp .keyLength))

end Sys2Proof.Machine

namespace Sys2Proof.Machine

/-! ## The round function F and FEVAL

Proofs of the statements of 44_round_function.md. F on numbers is a law of the model; the lemmas here are the properties
of R222 and FEVAL's next state on numbers. -/

/-! ### Properties of F (R222) -/

/-- The round number enters F through three rotation amounts mod 32 and one shift mod 8, and 32 is 0 in each. -/
theorem roundF_add_32 (r k : Word) (n : Nat) : roundF r k (n + 32) = roundF r k n := by
  have h1 : (3 * (n + 32) + 5) % 32 = (3 * n + 5) % 32 := by omega
  have h2 : (5 * (n + 32) + 11) % 32 = (5 * n + 11) % 32 := by omega
  have h3 (m : Nat) : (m + (n + 32)) % 32 = (m + n) % 32 := by omega
  have h4 : (n + 32) % 8 = n % 8 := by omega
  simp only [roundF, h1, h2, h3, h4]

/-- With r = k the mixed half a is 0, and so is every value from it up to res7; the shifted key is left. -/
theorem roundF_self (k : Word) (n : Nat) : roundF k k n = k >>> (n % 8) := by
  have hrot (s : Int) : rotl32 0#32 s = 0#32 := rotl32_zero_word s
  have hand : ~~~(~~~0#32 ||| ~~~0#32) = 0#32 := by decide
  have hor : ~~~(~~~0#32 &&& ~~~0#32) = 0#32 := by decide
  simp only [roundF, BitVec.xor_self, BitVec.zero_mul, BitVec.zero_and, BitVec.zero_or, hand, hor, hrot,
    BitVec.add_zero, BitVec.zero_shiftLeft, BitVec.zero_xor]

theorem roundF_zero (n : Nat) : roundF 0 0 n = 0 := by
  rw [roundF_self]
  exact BitVec.zero_ushiftRight

/-! ### FEVAL (R223) -/

/-- FEVAL n finishes with F(FIN, FKEY, n) in FOUT, for every number n. -/
theorem exec_feval_toNat (n : Nat) (s : State) : ∃ v : Word,
    exec (.feval n) s = .next { s with fout := v, busy := false, pend := none, done := true } ∧
    v.toNat = Arith.roundF s.fin.toNat s.fkey.toNat n :=
  ⟨roundF s.fin s.fkey n, rfl, roundF_toNat s.fin s.fkey n⟩

theorem encode_feval {n : Nat} (h1 : 1 ≤ n) (h31 : n ≤ 31) : encode (.feval n) = BitVec.ofNat 32 (4 + 256 * n) := by
  rw [encode_eq_iff (Instr.wf_feval.mpr ⟨h1, h31⟩), BitVec.toNat_ofNat, Nat.mod_eq_of_lt (by omega)]
  rfl

/-- Settles O37: the listed words are those of R118's format R, and FEVAL's next state is said on numbers. -/
theorem fevalComputesTheRoundFunction : Obligations.FevalComputesTheRoundFunction :=
  ⟨badWordFails_of_illegal fun _ hn => .inr (.inr (.inl hn)),
    fun n h1 h31 => ⟨encode_feval h1 h31, exec_feval_toNat n⟩⟩

/-- Settles O38, by the properties of F and FEVAL's next state, which asks nothing of the number n. -/
theorem roundFunctionProperties : Obligations.RoundFunctionProperties :=
  ⟨roundF_add_32, roundF_self, roundF_zero, exec_feval_toNat⟩

end Sys2Proof.Machine

namespace Sys2Proof.Machine

/-! ## The Feistel block engine: ENCBLK and DECBLK

Proofs of the statements of 45_feistel.md. One round on numbers, and one round undone by the other, are laws of the
model; the lemmas here carry them to the four rounds and to the two commands. -/

section
variable (rk : RoundKeys) (b : Block)

/-- Rounds 1 to 4 on numbers (R240): reading the halves as numbers commutes with each round. -/
theorem encrypt_toNat :
    ((encrypt rk b).1.toNat, (encrypt rk b).2.toNat) =
      Arith.encRound rk.rk3.toNat 4 (Arith.encRound rk.rk2.toNat 3
        (Arith.encRound rk.rk1.toNat 2 (Arith.encRound rk.rk0.toNat 1 (b.1.toNat, b.2.toNat)))) :=
  (List.foldl_hom (Prod.map BitVec.toNat BitVec.toNat) (l := [1, 2, 3, 4])
    (g₂ := fun c n => Arith.encRound (rk.get (n - 1)).toNat n c) fun c n => (encRound_toNat rk c n).symm).symm

/-- Rounds 4 down to 1 on numbers (R240). -/
theorem decrypt_toNat :
    ((decrypt rk b).1.toNat, (decrypt rk b).2.toNat) =
      Arith.decRound rk.rk0.toNat 1 (Arith.decRound rk.rk1.toNat 2
        (Arith.decRound rk.rk2.toNat 3 (Arith.decRound rk.rk3.toNat 4 (b.1.toNat, b.2.toNat)))) :=
  (List.foldl_hom (Prod.map BitVec.toNat BitVec.toNat) (l := [4, 3, 2, 1])
    (g₂ := fun c n => Arith.decRound (rk.get (n - 1)).toNat n c) fun c n => (decRound_toNat rk c n).symm).symm

end

/-- ENCBLK finishes with the encrypted block in DATA, whatever KLEN is (R241). -/
theorem exec_encblk (s : State) : exec .encblk s = .next (s.setBlock (encrypt s.rk s.block)).finish := rfl

/-- DECBLK finishes with the decrypted block in DATA, whatever KLEN is (R242). -/
theorem exec_decblk (s : State) : exec .decblk s = .next (s.setBlock (decrypt s.rk s.block)).finish := rfl

/-- Settles O39: both commands are of format N and finish with the model's block functions, read on numbers. -/
theorem blockCommandsRunFourRounds : Obligations.BlockCommandsRunFourRounds := by
  refine ⟨by decide, by decide, onlyWord_of_formatN (i := .encblk) rfl, onlyWord_of_formatN (i := .decblk) rfl,
    fun s => ?_, fun s => ?_⟩
  · exact ⟨_, _, exec_encblk s, encrypt_toNat s.rk s.block⟩
  · exact ⟨_, _, exec_decblk s, decrypt_toNat s.rk s.block⟩

/-- Settles O40: the second command finds the first one's block in DATA and the same round keys, and undoes it. -/
theorem decblkUndoesEncblk : Obligations.DecblkUndoesEncblk := by
  refine ⟨fun s => ?_, fun s => ?_⟩
  · have h := decrypt_encrypt s.rk s.block
    exact ⟨_, _, exec_encblk s, exec_decblk _, congrArg Prod.fst h, congrArg Prod.snd h, rfl⟩
  · have h := encrypt_decrypt s.rk s.block
    exact ⟨_, _, exec_decblk s, exec_encblk _, congrArg Prod.fst h, congrArg Prod.snd h, rfl⟩

end Sys2Proof.Machine

namespace Sys2Proof.Machine

/-! ## The message codec: ENCMSG and DECMSG

Proofs of the statements of 46_message.md. The byte-string functions of R260 are said chunk by chunk; each command's
result is the buffer of the model's laws, read block by block and as the string that those functions give. The round trip
of the commands is the one of the byte strings. -/

/-! ### The byte-string functions (R260) -/

/-- A block is read from a source with the same eight bytes. -/
theorem blockOf_eq {get : Nat → Byte} {b : Block} (h : ∀ i, i < 8 → blockByte b i = get i) : blockOf get = b :=
  block_ext fun i hi => (blockByte_blockOf get hi).trans (h i hi).symm

/-- Byte j of chunk k of the transformed string, by any block with the bytes of chunk k. -/
theorem mapChunks_getD_of_chunk (f : Block → Block) {d : List Byte} {k j : Nat} {b : Block}
    (hk : 8 * k + 8 ≤ d.length) (hj : j < 8) (hb : ∀ i, i < 8 → blockByte b i = d.getD (8 * k + i) 0) :
    (mapChunks f d).getD (8 * k + j) 0 = blockByte (f b) j := by
  have hq : (8 * k + j) / 8 = k := by omega
  have hm : (8 * k + j) % 8 = j := by omega
  rw [mapChunks_getD f d (by omega), hq, hm, blockOf_eq hb]

/-- A block function that undoes another one undoes it chunk by chunk. -/
theorem mapChunks_leftInverse {f g : Block → Block} (hgf : ∀ b, g (f b) = b) {d : List Byte} (h8 : d.length % 8 = 0) :
    mapChunks g (mapChunks f d) = d := by
  have hlen : (mapChunks f d).length = d.length := by
    rw [mapChunks_length]
    omega
  refine bytes_ext (by rw [mapChunks_length]; omega) fun j hj => ?_
  rw [mapChunks_length] at hj
  obtain ⟨b, hb⟩ : ∃ b : Block, ∀ i, i < 8 → blockByte b i = d.getD (8 * (j / 8) + i) 0 :=
    ⟨blockOf _, fun _ hi => blockByte_blockOf _ hi⟩
  have hchunk : ∀ i, i < 8 → blockByte (f b) i = (mapChunks f d).getD (8 * (j / 8) + i) 0 :=
    fun i hi => (mapChunks_getD_of_chunk f (by omega) hi hb).symm
  have hlt : j % 8 < 8 := Nat.mod_lt _ (by omega)
  rw [← Nat.div_add_mod j 8, mapChunks_getD_of_chunk g (by omega) hlt hchunk, hgf, hb _ hlt]

/-- The ciphertext has the padded length (R261). -/
theorem encryptMessage_length (m : List Byte) (K : DWord) :
    (encryptMessage m K).length = 8 * (m.length / 8) + 8 := by
  rw [encryptMessage, mapChunks_length, pad_length, add_padLength]
  omega

section
variable {c m : List Byte} {K : DWord}

theorem decryptMessage_of_length (h : c.length % 8 ≠ 0) : decryptMessage c K = .error .ciphertextLength := by
  rw [decryptMessage, if_pos h]

theorem decryptMessage_eq_ok :
    decryptMessage c K = .ok m ↔ c.length % 8 = 0 ∧ unpad (mapChunks (decrypt (keySchedule K)) c) = some m := by
  by_cases h8 : c.length % 8 = 0
  · cases hu : unpad (mapChunks (decrypt (keySchedule K)) c) <;> simp [decryptMessage, h8, hu]
  · simp [decryptMessage_of_length h8, h8]

theorem decryptMessage_eq_padding :
    decryptMessage c K = .error .padding ↔
      c.length % 8 = 0 ∧ unpad (mapChunks (decrypt (keySchedule K)) c) = none := by
  by_cases h8 : c.length % 8 = 0
  · cases hu : unpad (mapChunks (decrypt (keySchedule K)) c) <;> simp [decryptMessage, h8, hu]
  · simp [decryptMessage_of_length h8, h8]

end

/-- The document's law of R265: the blocks are decrypted one by one, and the padding is stripped. -/
theorem decryptMessage_encryptMessage (m : List Byte) (K : DWord) : decryptMessage (encryptMessage m K) K = .ok m := by
  refine decryptMessage_eq_ok.mpr ⟨by rw [encryptMessage_length]; omega, ?_⟩
  have h8 : (pad m).length % 8 = 0 := by
    rw [pad_length, add_padLength]
    omega
  rw [encryptMessage, mapChunks_leftInverse (decrypt_encrypt _) h8, unpad_pad]

/-- Settles O47, by the chunks of the padded string and of the ciphertext. -/
theorem messageFunctionsWorkBlockwise : Obligations.MessageFunctionsWorkBlockwise := by
  refine ⟨fun m K => ⟨encryptMessage_length m K, fun k j l r hk hj hb => mapChunks_getD_of_chunk _ hk hj hb⟩,
    fun c K h => decryptMessage_of_length h, fun c K h8 => ?_⟩
  refine ⟨mapChunks (decrypt (keySchedule K)) c, by rw [mapChunks_length]; omega,
    fun k j l r hk hj hb => mapChunks_getD_of_chunk _ hk hj hb, fun m => ?_, ?_⟩
  · simp [decryptMessage_eq_ok, h8]
  · simp [decryptMessage_eq_padding, h8]

/-! ### How the commands end (R262, R264) -/

/-- The state after a successful ENCMSG. -/
def State.encmsgDone (s : State) : State :=
  (((s.setRoundKeys (keySchedule s.masterKey)).setBuf s.encryptedBuf).setMsglen (8 * (s.msglen.toNat / 8) + 8)).finish

/-- The state after a successful DECMSG that found the pad length p. -/
def State.decmsgDone (s : State) (p : Nat) : State :=
  ((((s.setRoundKeys (keySchedule s.masterKey)).setBuf s.decryptedBuf).setMsglen
    (s.msglen.toNat - p)).setPadres p).finish

/-- The state after a DECMSG that failed with PADDING (R263). -/
def State.decmsgPadding (s : State) : State :=
  ((s.setRoundKeys (keySchedule s.masterKey)).setBuf (s.decryptedBuf.fill 0 s.msglen.toNat 0)).clearPadres.fail .padding

section
variable {s t : State}

theorem execEncmsg_eq_done (hk : s.keyValid) (hn : s.msglen.toNat < s.cfg.bufBytes) :
    execEncmsg s = .next s.encmsgDone := execEncmsg_of_ok hk hn

theorem execDecmsg_eq_done (h8 : s.msglen.toNat % 8 = 0) (hn : s.msglen.toNat ≤ s.cfg.bufBytes) (hk : s.keyValid)
    {p : Nat} (hp : padCheck (s.decryptedBuf.read s.draws) s.msglen.toNat = some p) :
    execDecmsg s = .next (s.decmsgDone p) := execDecmsg_of_some h8 hn hk hp

theorem execDecmsg_eq_padding (h8 : s.msglen.toNat % 8 = 0) (hn : s.msglen.toNat ≤ s.cfg.bufBytes) (hk : s.keyValid)
    (hp : padCheck (s.decryptedBuf.read s.draws) s.msglen.toNat = none) :
    execDecmsg s = .next s.decmsgPadding := execDecmsg_of_none h8 hn hk hp

/-- ENCMSG completes, or fails with nothing else changed. -/
theorem execEncmsg_outcomes (h : execEncmsg s = .next t) : t = s.encmsgDone ∨ ∃ e, t = s.fail e := by
  by_cases hk : s.keyValid
  · rcases Nat.lt_or_ge s.msglen.toNat s.cfg.bufBytes with hn | hn
    · cases (execEncmsg_eq_done hk hn).symm.trans h
      exact .inl rfl
    · cases (execEncmsg_of_long hk hn).symm.trans h
      exact .inr ⟨_, rfl⟩
  · cases (execEncmsg_of_invalid hk).symm.trans h
    exact .inr ⟨_, rfl⟩

/-- DECMSG completes, fails with PADDING, or fails with nothing else changed. -/
theorem execDecmsg_outcomes (h : execDecmsg s = .next t) :
    (∃ p, t = s.decmsgDone p) ∨ t = s.decmsgPadding ∨ ∃ e, e ≠ .padding ∧ t = s.fail e := by
  rcases execDecmsg_cases s with h8 | ⟨h8, hn⟩ | ⟨h8, hn, hk⟩ | ⟨h8, hn, hk⟩
  · cases (execDecmsg_of_length h8).symm.trans h
    exact .inr (.inr ⟨_, by decide, rfl⟩)
  · cases (execDecmsg_of_long h8 hn).symm.trans h
    exact .inr (.inr ⟨_, by decide, rfl⟩)
  · cases (execDecmsg_of_invalid h8 hn hk).symm.trans h
    exact .inr (.inr ⟨_, by decide, rfl⟩)
  · cases hp : padCheck (s.decryptedBuf.read s.draws) s.msglen.toNat with
    | some p =>
      cases (execDecmsg_eq_done h8 hn hk hp).symm.trans h
      exact .inl ⟨p, rfl⟩
    | none =>
      cases (execDecmsg_eq_padding h8 hn hk hp).symm.trans h
      exact .inr (.inl rfl)

end

/-! ### The fields that the commands' bytes and verdicts are read from -/

section
variable (s : State)

@[simp] theorem State.encmsgDone_rk : s.encmsgDone.rk = keySchedule s.masterKey := by simp [State.encmsgDone]

@[simp] theorem State.encmsgDone_buf : s.encmsgDone.buf = s.encryptedBuf := by simp [State.encmsgDone]

@[simp] theorem State.encmsgDone_draws : s.encmsgDone.draws = s.draws := by simp [State.encmsgDone]

@[simp] theorem State.decmsgDone_rk (p : Nat) : (s.decmsgDone p).rk = keySchedule s.masterKey := by
  simp [State.decmsgDone]

@[simp] theorem State.decmsgDone_buf (p : Nat) : (s.decmsgDone p).buf = s.decryptedBuf := by simp [State.decmsgDone]

@[simp] theorem State.decmsgDone_draws (p : Nat) : (s.decmsgDone p).draws = s.draws := by simp [State.decmsgDone]

@[simp] theorem State.decmsgDone_err (p : Nat) : (s.decmsgDone p).err = s.err := by simp [State.decmsgDone]

@[simp] theorem State.decmsgPadding_rk : s.decmsgPadding.rk = keySchedule s.masterKey := by simp [State.decmsgPadding]

@[simp] theorem State.decmsgPadding_buf : s.decmsgPadding.buf = s.decryptedBuf.fill 0 s.msglen.toNat 0 := by
  simp [State.decmsgPadding]

@[simp] theorem State.decmsgPadding_draws : s.decmsgPadding.draws = s.draws := by simp [State.decmsgPadding]

@[simp] theorem State.decmsgPadding_err : s.decmsgPadding.err = true := by simp [State.decmsgPadding]

/-- A padding failure is recorded with code 3 where no earlier error is (60_exceptions.md R281). -/
theorem State.decmsgPadding_ecode (h : s.err = false) : s.decmsgPadding.ecode = 3 := by
  simp [State.decmsgPadding, h, ErrCode.code]

end

/-! ### The bytes that the commands store -/

section
variable (s : State) (o : Nat)

theorem State.encmsgDone_bufByte : s.encmsgDone.bufByte o = s.encryptedBuf.read s.draws o := by
  simp [State.bufByte]

theorem State.decmsgDone_bufByte (p : Nat) : (s.decmsgDone p).bufByte o = s.decryptedBuf.read s.draws o := by
  simp [State.bufByte]

theorem State.encmsgDone_bufByte_above (h : 8 * (s.msglen.toNat / 8) + 8 ≤ o) :
    s.encmsgDone.bufByte o = s.bufByte o := by
  rw [State.encmsgDone_bufByte, State.read_encryptedBuf, if_neg (by omega)]

theorem State.read_decryptedBuf_above (h : s.msglen.toNat ≤ o) : s.decryptedBuf.read s.draws o = s.bufByte o := by
  rw [State.read_decryptedBuf, if_neg (by omega)]

/-- After a padding failure the message's bytes are 0 and the others as before (R263). -/
theorem State.decmsgPadding_bufByte :
    s.decmsgPadding.bufByte o = if o < s.msglen.toNat then 0 else s.bufByte o := by
  rw [State.bufByte, s.decmsgPadding_buf, s.decmsgPadding_draws, Memory.read_fill]
  split_ifs with h1 h2 h2
  · rfl
  · omega
  · omega
  · exact s.read_decryptedBuf_above o (by omega)

end

/-- Settles O57: the block loops and the zeroing stay below the bound, and the other failures store nothing. -/
theorem messageCommandsStoreOnlyTheMessage : Obligations.MessageCommandsStoreOnlyTheMessage := by
  refine ⟨fun s t h o ho => ?_, fun s t h o ho => ?_⟩
  · rcases execEncmsg_outcomes h with rfl | ⟨e, rfl⟩
    · exact s.encmsgDone_bufByte_above o ho
    · rfl
  · rcases execDecmsg_outcomes h with ⟨p, rfl⟩ | rfl | ⟨e, -, rfl⟩
    · rw [s.decmsgDone_bufByte, s.read_decryptedBuf_above o ho]
    · rw [s.decmsgPadding_bufByte, if_neg (by omega)]
    · rfl

/-- Code 3 is PADDING's alone (60_exceptions.md R280). -/
theorem ErrCode.code_eq_three {e : ErrCode} : e.code = 3 ↔ e = .padding := by cases e <;> decide

/-- Settles O50: from ERR = 0 the code tells the failure, and only PADDING comes after the decryption, which zeroes the
message. -/
theorem failedDecmsgShowsNoPlaintext : Obligations.FailedDecmsgShowsNoPlaintext := by
  intro s t herr h hfail
  rcases execDecmsg_outcomes h with ⟨p, rfl⟩ | rfl | ⟨e, he, rfl⟩
  · simp [herr] at hfail
  · exact ⟨fun _ o ho => by rw [s.decmsgPadding_bufByte, if_pos ho],
      fun hne => absurd (s.decmsgPadding_ecode herr) hne⟩
  · have hcode : (s.fail e).ecode = e.code := by simp [herr]
    exact ⟨fun h3 => absurd (ErrCode.code_eq_three.mp (hcode.symm.trans h3)) he, fun _ _ => rfl⟩

/-! ### The results as byte strings (R262, R264) -/

section
variable (s : State)

/-- A successful ENCMSG writes RK0..RK3, BUF and MSGLEN, and completes (R262). -/
theorem State.encmsgDone_frame :
    s.encmsgDone = { s with
      rk := s.encmsgDone.rk, buf := s.encmsgDone.buf, msglen := s.encmsgDone.msglen,
      busy := false, pend := none, done := true } := by
  simp only [State.encmsgDone, State.finish, State.setMsglen, State.setBuf, State.setRoundKeys]

/-- A successful DECMSG writes RK0..RK3, BUF, MSGLEN and PADRES, and completes (R264). -/
theorem State.decmsgDone_frame (p : Nat) :
    s.decmsgDone p = { s with
      rk := (s.decmsgDone p).rk, buf := (s.decmsgDone p).buf, msglen := (s.decmsgDone p).msglen,
      plen := (s.decmsgDone p).plen, vcnt := (s.decmsgDone p).vcnt,
      busy := false, pend := none, done := true } := by
  simp only [State.decmsgDone, State.finish, State.setPadres, State.setMsglen, State.setBuf, State.setRoundKeys]

/-- A padding failure writes RK0..RK3 and BUF, clears PADRES, and fails with code 3 (R264). -/
theorem State.decmsgPadding_frame {w : Word} (hp : s.pend = some w) :
    s.decmsgPadding =
      { failedWith s w 3 with rk := s.decmsgPadding.rk, buf := s.decmsgPadding.buf, plen := 0, vcnt := 0 } := by
  rw [State.decmsgPadding, State.fail_of_pending (w := w)]
  · rfl
  · exact hp

/-- The encrypted string and BUF after ENCMSG. -/
theorem State.encryptMessage_getD {j : Nat} (hj : j < 8 * (s.msglen.toNat / 8) + 8) :
    (encryptMessage (s.message s.msglen.toNat) s.masterKey).getD j 0 = s.encmsgDone.bufByte j := by
  have hP := add_padLength s.msglen.toNat
  rw [encryptMessage, mapChunks_getD _ _ (by rw [pad_length, State.message_length]; omega),
    State.encmsgDone_bufByte, State.read_encryptedBuf, if_pos hj]
  exact congrArg (fun b => blockByte (encrypt (keySchedule s.masterKey) b) (j % 8))
    (blockOf_congr fun i hi => State.pad_message_getD s _ _ (by omega))

/-- The padded length fits the register where it fits the buffer (R261). -/
theorem State.encmsgDone_msglen_toNat (hc : s.cfg.wf) (hn : s.msglen.toNat < s.cfg.bufBytes) :
    s.encmsgDone.msglen.toNat = 8 * (s.msglen.toNat / 8) + 8 := by
  obtain ⟨h8, -, hle⟩ := hc
  exact Nat.mod_eq_of_lt (by omega)

theorem State.decmsgDone_msglen_toNat (p : Nat) : (s.decmsgDone p).msglen.toNat = s.msglen.toNat - p :=
  Nat.mod_eq_of_lt (Nat.lt_of_le_of_lt (Nat.sub_le _ _) s.msglen.isLt)

theorem State.decmsgDone_plen_toNat {p : Nat} (h : p ≤ 8) : (s.decmsgDone p).plen.toNat = p :=
  Nat.mod_eq_of_lt (by omega)

theorem State.decmsgDone_vcnt_toNat (p : Nat) : (s.decmsgDone p).vcnt.toNat = 8 - p :=
  Nat.mod_eq_of_lt (by omega)

theorem State.encmsgDone_message :
    s.encmsgDone.message (8 * (s.msglen.toNat / 8) + 8) =
      encryptMessage (s.message s.msglen.toNat) s.masterKey :=
  State.message_eq _ (by rw [encryptMessage_length, State.message_length]) fun _ hj => s.encryptMessage_getD hj

theorem State.message_take {k n : Nat} (h : k ≤ n) : (s.message n).take k = s.message k := by
  rw [State.message, ← List.map_take, List.take_range, Nat.min_eq_left h, State.message]

/-- BUF[0..n-1] after a successful DECMSG is the decrypted string, the pad bytes included. -/
theorem State.decmsgDone_message (h8 : s.msglen.toNat % 8 = 0) (p : Nat) :
    (s.decmsgDone p).message s.msglen.toNat =
      mapChunks (decrypt (keySchedule s.masterKey)) (s.message s.msglen.toNat) :=
  State.message_eq _ (by rw [mapChunks_length, State.message_length]; omega) fun j hj => by
    rw [s.decmsgDone_bufByte, s.decrypted_message_getD j (by omega)]

/-- The check of DECMSG is that of unpad on the decrypted string. -/
theorem State.padCheck_decrypted_message (h8 : s.msglen.toNat % 8 = 0) :
    padCheck (fun j => (mapChunks (decrypt (keySchedule s.masterKey)) (s.message s.msglen.toNat)).getD j 0)
        (mapChunks (decrypt (keySchedule s.masterKey)) (s.message s.msglen.toNat)).length =
      padCheck (s.decryptedBuf.read s.draws) s.msglen.toNat := by
  have hlen : 8 * (s.msglen.toNat / 8) = s.msglen.toNat := by omega
  rw [mapChunks_length, State.message_length, hlen]
  exact padCheck_congr fun j hj => s.decrypted_message_getD j (by omega)

/-- decryptMessage of the message gives m exactly where DECMSG's check finds a pad length p, and m is the rest. -/
theorem State.decryptMessage_message_eq_ok {m : List Byte} :
    decryptMessage (s.message s.msglen.toNat) s.masterKey = .ok m ↔
      s.msglen.toNat % 8 = 0 ∧ ∃ p, padCheck (s.decryptedBuf.read s.draws) s.msglen.toNat = some p ∧
        m = (s.decmsgDone p).message (s.msglen.toNat - p) := by
  rw [decryptMessage_eq_ok, State.message_length]
  refine and_congr_right fun h8 => ?_
  have hlen : 8 * (s.msglen.toNat / 8) = s.msglen.toNat := by omega
  rw [unpad_eq_some, s.padCheck_decrypted_message h8, mapChunks_length, State.message_length, hlen]
  refine exists_congr fun p => and_congr_right fun _ => ?_
  rw [← s.decmsgDone_message h8 p, State.message_take _ (Nat.sub_le _ _)]

theorem State.decryptMessage_message_eq_padding :
    decryptMessage (s.message s.msglen.toNat) s.masterKey = .error .padding ↔
      s.msglen.toNat % 8 = 0 ∧ padCheck (s.decryptedBuf.read s.draws) s.msglen.toNat = none := by
  rw [decryptMessage_eq_padding, State.message_length]
  refine and_congr_right fun h8 => ?_
  rw [unpad_eq_none, s.padCheck_decrypted_message h8]

end

/-- Settles O48: the completed state is the law's, its bytes those of encryptMessage, and each failure is `fail`. -/
theorem encmsgEncryptsTheBuffer : Obligations.EncmsgEncryptsTheBuffer := by
  refine ⟨by decide, onlyWord_of_formatN (i := .encmsg) rfl, fun s hc hk hn => ?_,
    fun s w hp hk => ?_, fun s w hp hk hn => ?_⟩
  · have hlen := s.encmsgDone_msglen_toNat hc hn
    exact ⟨s.encmsgDone, execEncmsg_eq_done hk hn, hlen, by rw [hlen, s.encmsgDone_message],
      fun o ho => s.encmsgDone_bufByte_above o (by omega), s.encmsgDone_rk, s.encmsgDone_frame⟩
  · exact (execEncmsg_of_invalid hk).trans (congrArg _ (State.fail_of_pending hp .keyLength))
  · exact (execEncmsg_of_long hk hn).trans (congrArg _ (State.fail_of_pending hp .messageLength))

/-- Settles O49: the checks in their order, and after them the two answers of the padding check. -/
theorem decmsgDecryptsTheBuffer : Obligations.DecmsgDecryptsTheBuffer := by
  refine ⟨by decide, onlyWord_of_formatN (i := .decmsg) rfl, fun s w hp h8 => ?_, fun s w hp h8 hn => ?_,
    fun s w hp h8 hn hk => ?_, fun s m hk hn hm => ?_, fun s w hw hk hn hm => ?_⟩
  · exact (execDecmsg_of_length h8).trans (congrArg _ (State.fail_of_pending hp .ciphertextLength))
  · exact (execDecmsg_of_long h8 hn).trans (congrArg _ (State.fail_of_pending hp .messageLength))
  · exact (execDecmsg_of_invalid h8 hn hk).trans (congrArg _ (State.fail_of_pending hp .keyLength))
  · obtain ⟨h8, p, hp, hmsg⟩ := s.decryptMessage_message_eq_ok.mp hm
    obtain ⟨-, -, -, hp8, hpn, -⟩ := padCheck_eq_some.mp hp
    have hmlen : m.length = s.msglen.toNat - p := by rw [hmsg, State.message_length]
    have hpad : s.msglen.toNat - m.length = p := by omega
    refine ⟨s.decmsgDone p, execDecmsg_eq_done h8 hn hk hp, ?_, ?_, s.decmsgDone_message h8 p, ?_, ?_,
      fun o ho => ?_, s.decmsgDone_rk p, s.decmsgDone_frame p⟩
    · rw [s.decmsgDone_msglen_toNat, hmlen]
    · rw [hmlen, hmsg]
    · rw [hpad, s.decmsgDone_plen_toNat hp8]
    · rw [hpad, s.decmsgDone_vcnt_toNat]
    · rw [s.decmsgDone_bufByte, s.read_decryptedBuf_above o ho]
  · obtain ⟨h8, hp⟩ := s.decryptMessage_message_eq_padding.mp hm
    refine ⟨s.decmsgPadding, execDecmsg_eq_padding h8 hn hk hp, fun o ho => ?_, fun o ho => ?_, s.decmsgPadding_rk,
      s.decmsgPadding_frame hw⟩
    · rw [s.decmsgPadding_bufByte, if_pos ho]
    · rw [s.decmsgPadding_bufByte, if_neg (by omega)]

theorem State.masterKey_congr {s s' : State} (hhi : s.keyHi = s'.keyHi) (hlo : s.keyLo = s'.keyLo) :
    s.masterKey = s'.masterKey := by
  rw [State.masterKey, State.masterKey, hhi, hlo]

/-- Settles O51: DECMSG finds the string that ENCMSG left, and decryptMessage undoes encryptMessage. -/
theorem decmsgRestoresEncmsgsMessage : Obligations.DecmsgRestoresEncmsgsMessage := by
  intro s hc hk hn
  obtain ⟨-, -, hencmsg, -⟩ := encmsgEncryptsTheBuffer
  obtain ⟨-, -, -, -, -, hdecmsg, -⟩ := decmsgDecryptsTheBuffer
  have ⟨hc8, h16, _⟩ := hc
  obtain ⟨t, ht, hlen, hmsg, -, -, hframe⟩ := hencmsg s hc hk (by omega)
  obtain ⟨hhi, hlo, hklen, -⟩ := exec_keeps_inputs ht
  obtain ⟨hcfg, -⟩ := exec_keeps_model_fields ht
  have hm : decryptMessage ((t.accept 8).message (t.accept 8).msglen.toNat) (t.accept 8).masterKey =
      .ok (s.message s.msglen.toNat) := by
    refine Eq.trans ?_ (decryptMessage_encryptMessage (s.message s.msglen.toNat) s.masterKey)
    rw [← hmsg, ← State.masterKey_congr hhi hlo]
    rfl
  have hfit : (t.accept 8).msglen.toNat ≤ (t.accept 8).cfg.bufBytes := by
    rw [State.accept_msglen, State.accept_cfg, hlen, hcfg]
    omega
  obtain ⟨u, hu, hulen, humsg, -, -, -, -, -, huframe⟩ := hdecmsg (t.accept 8) _ (hklen.trans hk) hfit hm
  rw [State.message_length] at hulen humsg
  refine ⟨t, u, ht, hu, BitVec.eq_of_toNat_eq hulen, ?_, ?_, fun o ho => ?_⟩
  · rw [huframe, State.accept_err, hframe]
  · rw [huframe, State.accept_ecode, hframe]
  · rw [← State.message_getD u ho, humsg, State.message_getD s ho]

/-! ### The commands block by block (R266, R267) -/

section
variable {s t : State} {k j : Nat} {b : Block}

/-- Block k after ENCMSG is the encryption of any block with the bytes that the pad loop left there. -/
theorem execEncmsg_block (hk : s.keyValid) (hn : s.msglen.toNat < s.cfg.bufBytes) (h : execEncmsg s = .next t)
    (hkn : k ≤ s.msglen.toNat / 8) (hj : j < 8)
    (hb : ∀ i, i < 8 → blockByte b i = (s.paddedBuf s.msglen.toNat).read s.draws (8 * k + i)) :
    t.bufByte (8 * k + j) = blockByte (encrypt (keySchedule s.masterKey) b) j := by
  cases (execEncmsg_eq_done hk hn).symm.trans h
  have hq : (8 * k + j) / 8 = k := by omega
  have hm : (8 * k + j) % 8 = j := by omega
  have hblock : (s.paddedBuf s.msglen.toNat).readBlock s.draws k = b := blockOf_eq hb
  rw [s.encmsgDone_bufByte, State.read_encryptedBuf, if_pos (by omega), hq, hm, hblock]

/-- A full block of the message is encrypted as it stands. -/
theorem execEncmsg_full_block (hk : s.keyValid) (hn : s.msglen.toNat < s.cfg.bufBytes) (h : execEncmsg s = .next t)
    (hkn : k < s.msglen.toNat / 8) (hj : j < 8) (hb : ∀ i, i < 8 → blockByte b i = s.bufByte (8 * k + i)) :
    t.bufByte (8 * k + j) = blockByte (encrypt (keySchedule s.masterKey) b) j :=
  execEncmsg_block hk hn h (by omega) hj fun i hi => by
    rw [hb i hi, State.read_paddedBuf, if_neg (by omega)]

/-- The last block is encrypted as PADBLK pads the bytes of the message in it, whatever the others are. -/
theorem execEncmsg_last_block (hk : s.keyValid) (hn : s.msglen.toNat < s.cfg.bufBytes) (h : execEncmsg s = .next t)
    (hj : j < 8)
    (hb : ∀ i, i < s.msglen.toNat % 8 → blockByte b i = s.bufByte (8 * (s.msglen.toNat / 8) + i)) :
    t.bufByte (8 * (s.msglen.toNat / 8) + j) =
      blockByte (encrypt (keySchedule s.masterKey) (padBlock (s.msglen.toNat % 8) b)) j := by
  refine execEncmsg_block hk hn h le_rfl hj fun i hi => ?_
  have hP := add_padLength s.msglen.toNat
  rw [blockByte_padBlock _ _ hi, State.read_paddedBuf]
  rcases Nat.lt_or_ge i (s.msglen.toNat % 8) with hc | hc
  · rw [if_neg (by omega), if_neg (by omega), hb i hc]
  · rw [if_pos hc, if_pos (by omega), padLength]

/-- Block k after DECMSG's decryption loop is the decryption of any block with the bytes that stood there. -/
theorem State.read_decryptedBuf_block (hkn : k < s.msglen.toNat / 8) (hj : j < 8)
    (hb : ∀ i, i < 8 → blockByte b i = s.bufByte (8 * k + i)) :
    s.decryptedBuf.read s.draws (8 * k + j) = blockByte (decrypt (keySchedule s.masterKey) b) j := by
  have hq : (8 * k + j) / 8 = k := by omega
  have hm : (8 * k + j) % 8 = j := by omega
  have hblock : s.buf.readBlock s.draws k = b := blockOf_eq hb
  rw [State.read_decryptedBuf, if_pos (by omega), hq, hm, hblock]

end

/-- Settles O52: both ciphertext blocks are the encryption of the first plaintext block under the one key. -/
theorem equalPlaintextBlocksEncryptEqually : Obligations.EqualPlaintextBlocksEncryptEqually := by
  intro s s' t t' k k' hk hk' hhi hlo hn hn' hkn hkn' ht ht' heq j hj
  have hb : ∀ i, i < 8 → blockByte (s.buf.readBlock s.draws k) i = s.bufByte (8 * k + i) :=
    fun i hi => blockByte_blockOf _ hi
  rw [execEncmsg_full_block hk hn ht hkn hj hb, State.masterKey_congr hhi hlo,
    execEncmsg_full_block hk' hn' ht' hkn' hj fun i hi => (hb i hi).trans (heq i hi)]

/-- Settles O53: KEYEXP leaves ENCMSG's schedule, and the host's commands compute each block of ENCMSG. -/
theorem hostBlockLoopEqualsEncmsg : Obligations.HostBlockLoopEqualsEncmsg := by
  intro s t hk hn ht
  refine ⟨_, execKeyexp_of_valid hk, fun k l r hkn hb => ?_, fun l r hb => ?_⟩
  · exact ⟨_, exec_encblk _, fun j hj => (execEncmsg_full_block hk hn ht hkn hj hb).symm⟩
  · exact ⟨_, _, rfl, exec_encblk _, fun j hj => (execEncmsg_last_block hk hn ht hj hb).symm⟩

/-- The check looks at the last eight bytes alone, where there are eight. -/
theorem padCheck_last_block (get : Nat → Byte) {n : Nat} (h : 8 ≤ n) :
    padCheck get n = padCheck (fun j => get (n - 8 + j)) 8 := by
  refine Option.ext fun p => ?_
  rw [padCheck_eq_some_iff_toNat, padCheck_eq_some_iff_toNat]
  constructor
  · rintro ⟨h1, h8, -, hb⟩
    exact ⟨h1, h8, h8, fun j hj hj8 => hb _ (by omega) (by omega)⟩
  · rintro ⟨h1, h8, -, hb⟩
    refine ⟨h1, h8, by omega, fun j hj hjn => ?_⟩
    have hbyte := hb (j - (n - 8)) (by omega) (by omega)
    rwa [Nat.add_sub_of_le (by omega)] at hbyte

/-- Settles O54: each block of DECMSG is the one that DECBLK gives, and on the last block UNPADBLK's check and DECMSG's
give one answer. -/
theorem hostBlockLoopEqualsDecmsg : Obligations.HostBlockLoopEqualsDecmsg := by
  intro s t hk _ _ h8 hn ht
  refine ⟨_, execKeyexp_of_valid hk, fun k l r hkn hb => ?_⟩
  have hblock : ∀ j, j < 8 →
      s.decryptedBuf.read s.draws (8 * k + j) = blockByte (decrypt (keySchedule s.masterKey) (l, r)) j :=
    fun j hj => State.read_decryptedBuf_block hkn hj hb
  have hplain : t.err = false → ∀ j, j < 8 →
      blockByte (decrypt (keySchedule s.masterKey) (l, r)) j = t.bufByte (8 * k + j) := by
    intro hok j hj
    rcases execDecmsg_outcomes ht with ⟨p, rfl⟩ | rfl | ⟨e, -, rfl⟩
    · rw [s.decmsgDone_bufByte, hblock j hj]
    · simp at hok
    · simp at hok
  have hcheck : 8 * k + 8 = s.msglen.toNat → padCheck (s.decryptedBuf.read s.draws) s.msglen.toNat =
      padCheck (blockByte (decrypt (keySchedule s.masterKey) (l, r))) 8 := by
    intro hlast
    rw [← hlast, padCheck_last_block _ (by omega), Nat.add_sub_cancel]
    exact padCheck_congr hblock
  cases hp : padCheck (blockByte (decrypt (keySchedule s.masterKey) (l, r))) 8 with
  | some p =>
    refine ⟨_, _, exec_decblk _, execUnpadblk_of_some hp, hplain, fun hlast => ?_⟩
    cases (execDecmsg_eq_done h8 hn hk ((hcheck hlast).trans hp)).symm.trans ht
    exact ⟨rfl, rfl, rfl, rfl⟩
  | none =>
    refine ⟨_, _, exec_decblk _, execUnpadblk_of_none hp, hplain, fun hlast => ?_⟩
    cases (execDecmsg_eq_padding h8 hn hk ((hcheck hlast).trans hp)).symm.trans ht
    exact ⟨rfl, rfl, rfl, rfl⟩

end Sys2Proof.Machine

namespace Sys2Proof.Machine

/-! ## The errors: what a failure records, and which command raises which

Proofs of the statements of 60_exceptions.md. With ERR = 0 before, a failure is captured with its own code (R281), so the
code read after a command tells which of the command's checks failed (R283). -/

/-- Settles O27: the record is the one of any failure with a pending word, and the codes are the table's. -/
theorem failureRecordsTheFirstError : Obligations.FailureRecordsTheFirstError :=
  ⟨fun _ e _ hp => State.fail_of_pending hp e, rfl, rfl, rfl, rfl, rfl⟩

section
variable {s t : State}

/-- A failure is recorded where no earlier error is (10_state.md R42). -/
theorem State.fail_ecode_of_no_error (h : s.err = false) (e : ErrCode) : (s.fail e).ecode = e.code := by
  rw [State.fail_ecode, h]
  rfl

/-! What each command can raise where ERR was 0 (R280, R283). -/

variable (herr : s.err = false) (hfail : t.err = true)
include herr hfail

theorem execKeyexp_raises (h : execKeyexp s = .next t) : t.ecode = 1 := by
  by_cases hk : s.keyValid
  · cases (execKeyexp_of_valid hk).symm.trans h
    simp [herr] at hfail
  · cases (execKeyexp_of_invalid hk).symm.trans h
    exact State.fail_ecode_of_no_error herr .keyLength

theorem execUnpadblk_raises (h : execUnpadblk s = .next t) : t.ecode = 3 := by
  cases hp : padCheck (blockByte s.block) 8 with
  | some p =>
    cases (execUnpadblk_of_some hp).symm.trans h
    simp [herr] at hfail
  | none =>
    cases (execUnpadblk_of_none hp).symm.trans h
    exact State.fail_ecode_of_no_error (s := s.clearPadres) herr .padding

theorem execEncmsg_raises (h : execEncmsg s = .next t) : t.ecode = 1 ∨ t.ecode = 6 := by
  by_cases hk : s.keyValid
  · rcases Nat.lt_or_ge s.msglen.toNat s.cfg.bufBytes with hn | hn
    · cases (execEncmsg_of_ok hk hn).symm.trans h
      simp [herr] at hfail
    · cases (execEncmsg_of_long hk hn).symm.trans h
      exact .inr (State.fail_ecode_of_no_error herr .messageLength)
  · cases (execEncmsg_of_invalid hk).symm.trans h
    exact .inl (State.fail_ecode_of_no_error herr .keyLength)

theorem execDecmsg_raises (h : execDecmsg s = .next t) :
    t.ecode = 1 ∨ t.ecode = 3 ∨ t.ecode = 4 ∨ t.ecode = 6 := by
  rcases execDecmsg_cases s with h8 | ⟨h8, hn⟩ | ⟨h8, hn, hk⟩ | ⟨h8, hn, hk⟩
  · cases (execDecmsg_of_length h8).symm.trans h
    exact .inr (.inr (.inl (State.fail_ecode_of_no_error herr .ciphertextLength)))
  · cases (execDecmsg_of_long h8 hn).symm.trans h
    exact .inr (.inr (.inr (State.fail_ecode_of_no_error herr .messageLength)))
  · cases (execDecmsg_of_invalid h8 hn hk).symm.trans h
    exact .inl (State.fail_ecode_of_no_error herr .keyLength)
  · cases hp : padCheck (s.decryptedBuf.read s.draws) s.msglen.toNat with
    | some p =>
      cases (execDecmsg_eq_done h8 hn hk hp).symm.trans h
      simp [herr] at hfail
    | none =>
      cases (execDecmsg_eq_padding h8 hn hk hp).symm.trans h
      exact .inr (.inl (s.decmsgPadding_ecode herr))

end

/-- Settles O58: the four commands that can fail by the codes of their checks; the other five keep ERR as it was. -/
theorem commandsRaiseOnlyTheirErrors : Obligations.CommandsRaiseOnlyTheirErrors := by
  intro i s t h herr hfail
  cases i with
  | keyexp => exact .inl ⟨rfl, execKeyexp_raises herr hfail h⟩
  | unpadblk => exact .inr (.inl ⟨rfl, execUnpadblk_raises herr hfail h⟩)
  | encmsg => exact .inr (.inr (.inl ⟨rfl, execEncmsg_raises herr hfail h⟩))
  | decmsg => exact .inr (.inr (.inr ⟨rfl, execDecmsg_raises herr hfail h⟩))
  | nop | encblk | decblk | feval | padblk =>
    cases h
    simp [herr] at hfail

end Sys2Proof.Machine

namespace Sys2Proof.Machine

/-! ## Reset and the hazards: the reset input, the stop it brings, and ENCMSG repeated

Proofs of the statements of 70_reset_and_hazards.md. The reset input's level and the schedule decide alone whether a
step answers, so a platform that keeps R320 is followed by these two fields of the state. -/

/-! ### Steps under the reset input (R320) -/

section
variable {s t : State}

theorem step_of_assertReset (he : s.nextEvent = .assertReset) : step s = .next s.slot.assertReset := by
  rw [step, he]
  rfl

theorem step_of_releaseReset (he : s.nextEvent = .releaseReset) : step s = .next s.slot.releaseReset := by
  rw [step, he]
  rfl

theorem engineTurn_of_reset (hr : s.rst = true) : engineTurn s = .next s := if_pos hr

theorem step_of_host_in_reset {x : Txn} (hr : s.rst = true) (he : s.nextEvent = .host x) :
    step s = .refused .hostDuringReset := by
  rw [step, he]
  exact if_pos hr

theorem step_of_host_released {x : Txn} (hr : s.rst = false) (he : s.nextEvent = .host x) :
    step s = .next (s.slot.transact x) := by
  rw [step, he]
  exact if_neg (by simp [hr])

end

/-- Settles O8: asserting the reset input clears the state, and the invariant says it is still the cleared state at
the engine's turns and at the release. -/
theorem resetInputHoldsTheMachine : Obligations.ResetInputHoldsTheMachine := by
  refine ⟨fun s he => ⟨_, step_of_assertReset he, s.slot.assertReset_atReset, rfl⟩, fun s hi hr he => ?_,
    fun s x hr he => step_of_host_in_reset hr he, fun s hi hr he => ?_⟩
  · have hstep : step s = .next s.slot.clear := by
      rw [step_of_engine he, engineTurn_of_reset (s := s.slot) hr, ← hi.slot.reset hr]
    exact ⟨_, hstep, s.slot.clear_atReset, hr⟩
  · have hstep : step s = .next s.slot.clear.releaseReset := by
      rw [step_of_releaseReset he, ← hi.slot.reset hr]
    exact ⟨_, hstep, s.slot.clear_atReset, rfl, rfl, rfl, rfl⟩

/-! ### Where a step stops (R320) -/

/-- The level of the reset input after an event. -/
def Event.levelAfter (rst : Bool) : Event → Bool
  | .assertReset => true
  | .releaseReset => false
  | .host _ | .engine => rst

section
variable {s t : State}

/-- The engine's turn never stops: a word that decodes is a command, which completes, and another fails (R143). -/
theorem engineTurn_answers (s : State) : ∃ t, engineTurn s = .next t := by
  cases hr : s.rst with
  | true => exact ⟨s, engineTurn_of_reset hr⟩
  | false =>
    cases hp : s.pend with
    | none => exact ⟨s, engineTurn_of_idle hp⟩
    | some w =>
      cases hd : decode w with
      | ok i =>
        obtain ⟨t, ht, -⟩ := exec_completes i s
        exact ⟨t, (engineTurn_pending hr hp hd).trans ht⟩
      | error e => exact ⟨_, engineTurn_of_illegal hr hp ((decode_eq_error_iff w).mp ⟨e, hd⟩)⟩

/-- The only stop of the machine is a host transaction while the reset input is asserted. -/
theorem stepSafe_iff : StepSafe s ↔ ∀ x, s.nextEvent = .host x → s.rst = false := by
  constructor
  · rintro ⟨t, ht⟩ x he
    by_contra hr
    cases (step_of_host_in_reset (by simpa using hr) he).symm.trans ht
  · intro hlegal
    cases he : s.nextEvent with
    | host x => exact ⟨_, step_of_host_released (hlegal x he) he⟩
    | engine =>
      obtain ⟨t, ht⟩ := engineTurn_answers s.slot
      exact ⟨t, (step_of_engine he).trans ht⟩
    | assertReset => exact ⟨_, step_of_assertReset he⟩
    | releaseReset => exact ⟨_, step_of_releaseReset he⟩

/-- A step takes its event from the schedule, and moves the reset input as the event says. -/
theorem step_schedule_rst (h : step s = .next t) :
    t.schedule = s.schedule.tail ∧ t.rst = s.nextEvent.levelAfter s.rst := by
  cases stepped_of_step h with
  | stored a v g x he hr hg hb =>
    obtain ⟨-, hrst, hsched, -⟩ := s.slot.storeTarget_frame v g
    exact ⟨hsched, he ▸ hrst⟩
  | finished w u he hp hr hu | failed w u e he hp hr hu hne =>
    obtain ⟨-, hrst, hsched, -⟩ := hu.model_fields
    exact ⟨hsched, he ▸ hrst⟩
  | read a x he hr | unmapped a v x he hr hg | dropped a v g x he hr hg hin hb | idle he hi | assertReset he
  | releaseReset he => exact ⟨rfl, he ▸ rfl⟩

/-- A legal schedule whose next event is a transaction has the reset input released. -/
theorem State.released_of_legal {x : Txn} (hl : legalSchedule s.rst s.schedule = true)
    (he : s.nextEvent = .host x) : s.rst = false := by
  cases hs : s.schedule with
  | nil => simp [State.nextEvent, hs] at he
  | cons e es =>
    have hx : e = .host x := by simpa [State.nextEvent, hs] using he
    rw [hs, hx] at hl
    simp only [legalSchedule, Bool.and_eq_true, Bool.not_eq_true'] at hl
    exact hl.1

/-- The rest of a legal schedule is legal at the level after its first event. -/
theorem State.legal_tail (hl : legalSchedule s.rst s.schedule = true) :
    legalSchedule (s.nextEvent.levelAfter s.rst) s.schedule.tail = true := by
  unfold State.nextEvent
  cases hs : s.schedule with
  | nil => rfl
  | cons e es =>
    rw [hs] at hl
    cases e with
    | host x => exact (Bool.and_eq_true_iff.mp hl).2
    | engine | assertReset | releaseReset => exact hl

end

/-- Settles O9: a legal schedule shuts out the only stop, and its rest is legal at the level the step leaves. -/
theorem legalScheduleIsNeverStopped : Obligations.LegalScheduleIsNeverStopped := by
  refine fun s hl => ⟨stepSafe_iff.mpr fun x he => State.released_of_legal hl he, fun t h => ?_⟩
  obtain ⟨hsched, hrst⟩ := step_schedule_rst h
  rw [hsched, hrst]
  exact State.legal_tail hl

/-! ### ENCMSG repeated (R327) -/

@[simp] theorem State.encmsgDone_err (s : State) : s.encmsgDone.err = s.err := by simp [State.encmsgDone]

@[simp] theorem State.encmsgDone_klen (s : State) : s.encmsgDone.klen = s.klen := by simp [State.encmsgDone]

@[simp] theorem State.encmsgDone_cfg (s : State) : s.encmsgDone.cfg = s.cfg := by simp [State.encmsgDone]

/-- ENCMSG on a message of whole blocks appends a full pad block (42_padding.md R180). -/
theorem State.encmsgDone_msglen_of_blocks {s : State} (hc : s.cfg.wf) (hn : s.msglen.toNat < s.cfg.bufBytes)
    (h8 : s.msglen.toNat % 8 = 0) : s.encmsgDone.msglen.toNat = s.msglen.toNat + 8 := by
  rw [s.encmsgDone_msglen_toNat hc hn]
  omega

/-- Settles O55: the ciphertext is a message of whole blocks, so the second ENCMSG appends one or finds no room. -/
theorem repeatedEncmsgGrowsByEight : Obligations.RepeatedEncmsgGrowsByEight := by
  intro s t hc hk hn h
  cases (execEncmsg_eq_done hk hn).symm.trans h
  have h8 : s.encmsgDone.msglen.toNat % 8 = 0 := by
    rw [s.encmsgDone_msglen_toNat hc hn]
    omega
  have hcfg : (s.encmsgDone.accept 7).cfg = s.cfg := by simp
  have hkey : (s.encmsgDone.accept 7).keyValid := by simpa [State.keyValid] using hk
  refine ⟨h8, fun hfit => ?_, fun hlong => ?_⟩
  · rw [← hcfg] at hc hfit
    exact ⟨_, execEncmsg_eq_done hkey hfit, State.encmsgDone_msglen_of_blocks hc hfit h8, by simp⟩
  · rw [← hcfg] at hlong
    refine ⟨_, execEncmsg_of_long hkey hlong, rfl, rfl, fun herr => ?_⟩
    rw [State.fail_of_pending (State.accept_pend _ _)]
    simp [failedWith, herr, ErrCode.code]

end Sys2Proof.Machine
